-- ==== Sys2Proof/Word.lean ====
section
/-! DEFINITION. The words of base85_codec: one width per item format (30_encoding R70) and the naturals-first
arithmetic of 00_scope R9. -/

namespace Sys2Proof

/-- An 8-bit item of the input or output channel, and one ROM entry (20_memory R50, R54). -/
abbrev Byte := BitVec 8

/-- A command word, format CMD32 (30_encoding R70, R71). -/
abbrev CmdWord := BitVec 32

/-- A response word, format RSP64 (30_encoding R70, R75). -/
abbrev RspWord := BitVec 64

/-- The OP field of a command word and the OP register (30_encoding R71, 10_state R24). -/
abbrev OpCode := BitVec 4

/-- The LEN field of a command word and the REM register (30_encoding R72, 10_state R25). -/
abbrev FrameLen := BitVec 28

/-- The STATUS register and the STATUS field of a response (10_state R30, 30_encoding R76). -/
abbrev StatusCode := BitVec 4

end Sys2Proof
end

