-- ==== Sys2Proof/Config.lean ====
section
/-! DEFINITION. The fixed parameters of 00_scope R7, the check of a parameterised model (00_scope R8,
30_encoding R82, 93 U1 and U8), and the one free value of the design (93 U3). -/

namespace Sys2Proof.Config

/-- RADIX (00_scope R7). -/
@[simp] abbrev radix : Nat := 85

/-- ENC_GROUP, bytes of an encode group (00_scope R7). -/
@[simp] abbrev encGroupLen : Nat := 4

/-- DEC_GROUP, symbols of a decode group (00_scope R7). -/
@[simp] abbrev decGroupLen : Nat := 5

/-- PAD_DIGIT (00_scope R7, 42_decode R163). -/
@[simp] abbrev padDigit : Nat := 84

/-- What SYM_ROM holds at the addresses 85 to 127 in an implementation built with 128 entries. The contents are
unspecified and no rule reads them (20_memory R51, 93 U3): a FREE VALUE, with no body (log 6). -/
opaque symRomBeyond : Nat → Byte

/-- What a generator of this hardware would take as arguments, were it parameterised (00_scope R8, 93 U1). -/
structure Params where
  alphabet : List Byte
  padDigit : Nat
  deriving DecidableEq, Repr

/-- The alphabet invariant of 30_encoding R82: exactly 85 characters, no two equal, each printable ASCII. R83 counts
nine printable characters outside the alphabet, so space is not among the printable ones: 0x21 to 0x7E (log 16). -/
def alphabetLegal (alphabet : List Byte) : Bool :=
  decide (alphabet.length = 85) && decide alphabet.Nodup &&
    alphabet.all fun c => decide (0x21 ≤ c.toNat) && decide (c.toNat ≤ 0x7E)

/-- A configuration that fails the alphabet invariant, or asks for a pad digit other than 84, is refused
(00_scope R8, 60_exceptions R204, 93 U1 and U8). -/
def Params.legal (p : Params) : Bool :=
  alphabetLegal p.alphabet && decide (p.padDigit = 84)

end Sys2Proof.Config
end

