-- ==== Sys2Proof/Syntax.lean ====
section
/-! DEFINITION. The command words as syntax: one constructor per row of spec/opcode_table.json, and the host's own
textual program lines (30_encoding R90 to R92). -/

namespace Sys2Proof

/-- A command (30_encoding R73). The operand is LEN, the number of input items of the frame (R72). Each of the 14
reserved OP values is a row of its own (40_frame_control R110). -/
inductive Instr where
  | encode   (len : FrameLen)
  | decode   (len : FrameLen)
  | illegal0 (len : FrameLen)
  | illegal3 (len : FrameLen)
  | illegal4 (len : FrameLen)
  | illegal5 (len : FrameLen)
  | illegal6 (len : FrameLen)
  | illegal7 (len : FrameLen)
  | illegal8 (len : FrameLen)
  | illegal9 (len : FrameLen)
  | illegalA (len : FrameLen)
  | illegalB (len : FrameLen)
  | illegalC (len : FrameLen)
  | illegalD (len : FrameLen)
  | illegalE (len : FrameLen)
  | illegalF (len : FrameLen)
  deriving DecidableEq, Repr

/-- One line of a host program (30_encoding R90 to R92). Numbers are as written, before any check; a character of a
text is its code. -/
inductive Line where
  /-- `ENCODE <len>` -/
  | encode (len : Nat)
  /-- `DECODE <len>` -/
  | decode (len : Nat)
  /-- `.cmd <hex32>` -/
  | cmd (word : Nat)
  /-- `.bytes h h …` -/
  | bytes (items : List Nat)
  /-- `.text "…"` -/
  | text (codes : List Nat)
  /-- `ENCODE_BYTES h h …` -/
  | encodeBytes (items : List Nat)
  /-- `DECODE_TEXT "s"` -/
  | decodeText (codes : List Nat)
  /-- `ENCODE_TEXT "s"`: the host's UTF-8 encoder runs first -/
  | encodeText (codes : List Nat)
  /-- `DECODE_TO_TEXT "s"`: the host's UTF-8 decoder runs on the output -/
  | decodeToText (codes : List Nat)
  /-- a line that starts with `;`, or one with nothing on it (DESIGN CHOICE, log 15) -/
  | comment
  deriving DecidableEq, Repr

/-- A frame as the host sends it: one command word and the items that follow it (00_scope glossary, 20_memory R64). -/
structure Frame where
  cmd   : CmdWord
  items : List Byte
  deriving DecidableEq, Repr

end Sys2Proof
end

