-- ==== Sys2Proof/Decode.lean ====
section
/-! DEFINITION. The command decoder and encoder (30_encoding R70 to R73, R78, R79), the opcode table, and the
decoder as the host's table numbers bits. -/

namespace Sys2Proof

/-- OP, bits [31:28] of a command word (30_encoding R71). -/
def opField (w : CmdWord) : OpCode := w.extractLsb' 28 4

/-- LEN, bits [27:0] of a command word (30_encoding R71). -/
def lenField (w : CmdWord) : FrameLen := w.extractLsb' 0 28

/-- The command decoder. It is total and rejects no word: every 4-bit OP selects exactly one row
(30_encoding R73, R78), and LEN never changes which. -/
def decodeWord (w : CmdWord) : Instr :=
  match (opField w).toNat with
  | 0x0 => .illegal0 (lenField w)
  | 0x1 => .encode (lenField w)
  | 0x2 => .decode (lenField w)
  | 0x3 => .illegal3 (lenField w)
  | 0x4 => .illegal4 (lenField w)
  | 0x5 => .illegal5 (lenField w)
  | 0x6 => .illegal6 (lenField w)
  | 0x7 => .illegal7 (lenField w)
  | 0x8 => .illegal8 (lenField w)
  | 0x9 => .illegal9 (lenField w)
  | 0xA => .illegalA (lenField w)
  | 0xB => .illegalB (lenField w)
  | 0xC => .illegalC (lenField w)
  | 0xD => .illegalD (lenField w)
  | 0xE => .illegalE (lenField w)
  | _   => .illegalF (lenField w)

/-- The OP value of a command (30_encoding R73). -/
def opOf : Instr → OpCode
  | .illegal0 _ => 0x0
  | .encode _   => 0x1
  | .decode _   => 0x2
  | .illegal3 _ => 0x3
  | .illegal4 _ => 0x4
  | .illegal5 _ => 0x5
  | .illegal6 _ => 0x6
  | .illegal7 _ => 0x7
  | .illegal8 _ => 0x8
  | .illegal9 _ => 0x9
  | .illegalA _ => 0xA
  | .illegalB _ => 0xB
  | .illegalC _ => 0xC
  | .illegalD _ => 0xD
  | .illegalE _ => 0xE
  | .illegalF _ => 0xF

/-- The LEN operand of a command (30_encoding R77). -/
def lenOf : Instr → FrameLen
  | .illegal0 len => len
  | .encode len   => len
  | .decode len   => len
  | .illegal3 len => len
  | .illegal4 len => len
  | .illegal5 len => len
  | .illegal6 len => len
  | .illegal7 len => len
  | .illegal8 len => len
  | .illegal9 len => len
  | .illegalA len => len
  | .illegalB len => len
  | .illegalC len => len
  | .illegalD len => len
  | .illegalE len => len
  | .illegalF len => len

/-- The command encoder: the word is OP above LEN (30_encoding R71, R90). -/
def encodeWord (i : Instr) : CmdWord := opOf i ++ lenOf i

/-- One row of spec/opcode_table.json: a word belongs to the row when `w &&& mask = pattern`. -/
structure OpcodeRow where
  mnemonic : String
  mask     : CmdWord
  pattern  : CmdWord
  deriving DecidableEq, Repr

/-- spec/opcode_table.json, row by row, with the spec's mnemonics. -/
def opcodeTable : List OpcodeRow :=
  [ ⟨"ENCODE", 0xF0000000, 0x10000000⟩, ⟨"DECODE", 0xF0000000, 0x20000000⟩,
    ⟨"ILLEGAL.0x0", 0xF0000000, 0x00000000⟩, ⟨"ILLEGAL.0x3", 0xF0000000, 0x30000000⟩ ] ++
  [ ⟨"ILLEGAL.0x4", 0xF0000000, 0x40000000⟩, ⟨"ILLEGAL.0x5", 0xF0000000, 0x50000000⟩,
    ⟨"ILLEGAL.0x6", 0xF0000000, 0x60000000⟩, ⟨"ILLEGAL.0x7", 0xF0000000, 0x70000000⟩ ] ++
  [ ⟨"ILLEGAL.0x8", 0xF0000000, 0x80000000⟩, ⟨"ILLEGAL.0x9", 0xF0000000, 0x90000000⟩,
    ⟨"ILLEGAL.0xA", 0xF0000000, 0xA0000000⟩, ⟨"ILLEGAL.0xB", 0xF0000000, 0xB0000000⟩ ] ++
  [ ⟨"ILLEGAL.0xC", 0xF0000000, 0xC0000000⟩, ⟨"ILLEGAL.0xD", 0xF0000000, 0xD0000000⟩,
    ⟨"ILLEGAL.0xE", 0xF0000000, 0xE0000000⟩, ⟨"ILLEGAL.0xF", 0xF0000000, 0xF0000000⟩ ]

/-- A row covers a word (opcode_table.json, "match" and "mask"). -/
def OpcodeRow.covers (r : OpcodeRow) (w : CmdWord) : Bool := w &&& r.mask == r.pattern

/-- The mnemonic of a command, as spec/opcode_table.json spells it. -/
def mnemonicOf : Instr → String
  | .encode _   => "ENCODE"
  | .decode _   => "DECODE"
  | .illegal0 _ => "ILLEGAL.0x0"
  | .illegal3 _ => "ILLEGAL.0x3"
  | .illegal4 _ => "ILLEGAL.0x4"
  | .illegal5 _ => "ILLEGAL.0x5"
  | .illegal6 _ => "ILLEGAL.0x6"
  | .illegal7 _ => "ILLEGAL.0x7"
  | .illegal8 _ => "ILLEGAL.0x8"
  | .illegal9 _ => "ILLEGAL.0x9"
  | .illegalA _ => "ILLEGAL.0xA"
  | .illegalB _ => "ILLEGAL.0xB"
  | .illegalC _ => "ILLEGAL.0xC"
  | .illegalD _ => "ILLEGAL.0xD"
  | .illegalE _ => "ILLEGAL.0xE"
  | .illegalF _ => "ILLEGAL.0xF"

/-- Why a bit string is no command word. No 32-bit word is ever rejected (30_encoding R78). -/
inductive DecodeReject where
  /-- more than 32 bits: a command word is always 32 bits (30_encoding R70) -/
  | longerThanCommand
  /-- the number given has bits above the length given for it -/
  | bitsAboveLength
  deriving DecidableEq, Repr

/-- Decode a bit string of `nbits` bits whose value is `w`. Bit 0 is the least significant; the bits a shorter string
leaves out are 0. A command moves whole on a parallel bus, so no byte order applies (20_memory R59, log 11). -/
def decodeBits (nbits w : Nat) : Except DecodeReject Instr :=
  if 32 < nbits then .error .longerThanCommand
  else if 2 ^ nbits ≤ w then .error .bitsAboveLength
  else .ok (decodeWord (BitVec.ofNat 32 w))

/-- The instruction the decoder reads from a word numbered as spec/opcode_table.json numbers it. -/
def decodeTableWord (nbits w : Nat) : Option Instr :=
  match decodeBits nbits w with
  | .ok i => some i
  | .error _ => none

/-- The number of items a frame must bring: the LEN of its command (20_memory R64). -/
def Frame.len (f : Frame) : FrameLen := lenField f.cmd

end Sys2Proof
end

