-- ==== Sys2Proof/WellFormed.lean ====
section
/-! DEFINITION. What is well formed: every command (30_encoding R78), and of the host's programs the lines and
frames that keep the bounds of 30_encoding R72, R74, R90 and R91. -/

namespace Sys2Proof

/-- "Every 32-bit word is a well-formed command word" (30_encoding R78). LEN has its field's 28 bits by type, so no
check is left for a command as decoded. -/
def Instr.wf : Instr → Bool
  | .encode _ | .decode _ => true
  | .illegal0 _ | .illegal3 _ | .illegal4 _ | .illegal5 _ | .illegal6 _ | .illegal7 _ | .illegal8 _ => true
  | .illegal9 _ | .illegalA _ | .illegalB _ | .illegalC _ | .illegalD _ | .illegalE _ | .illegalF _ => true

/-- A length as the host writes it: 0 to 2^28 − 1. A longer frame must be split (30_encoding R72, R90, 93 U20). -/
def lengthWritable (n : Nat) : Bool := decide (n < 2 ^ 28)

/-- A written number that is one item (30_encoding R74, R91). -/
def itemWritable (n : Nat) : Bool := decide (n < 2 ^ 8)

/-- A character of `.text`: it has an ASCII code (30_encoding R91, log 15). -/
def charWritable (n : Nat) : Bool := decide (n < 0x80)

/-- The check of one line. The pseudo-commands are checked by what they expand to, so their number of items is
bounded too (30_encoding R90 to R92). The spec gives no range for the characters of ENCODE_TEXT: a code below 0x110000,
the range of Unicode, is the model's choice (DESIGN CHOICE, log 15), and assembly does not ask for it. -/
def Line.wf : Line → Bool
  | .encode len        => lengthWritable len
  | .decode len        => lengthWritable len
  | .cmd word          => decide (word < 2 ^ 32)
  | .bytes items       => items.all itemWritable
  | .text codes        => codes.all charWritable
  | .encodeBytes items => items.all itemWritable && lengthWritable items.length
  | .decodeText codes  => codes.all charWritable && lengthWritable codes.length
  | .encodeText codes  => codes.all fun n => decide (n < 0x110000)
  | .decodeToText codes => codes.all charWritable && lengthWritable codes.length
  | .comment           => true

/-- A frame is well formed when its items number exactly its command's LEN (30_encoding R91, 20_memory R64). -/
def Frame.wf (f : Frame) : Bool := decide (f.items.length = f.len.toNat)

end Sys2Proof
end

