-- ==== Sys2Proof/Machine/State.lean ====
section
/-! DEFINITION. The machine's state: the registers of 10_state R21, what the host drives on the four channels
(20_memory R55), and the record of what was delivered (40_frame_control R112). -/

namespace Sys2Proof.Machine

/-- ST, the controller state (10_state R23). Its binary encoding cannot be observed and is not modelled (93 U2). -/
inductive Mode where
  /-- IDLE: no frame is open, the next command is accepted -/
  | idle
  /-- ENC: an ENCODE frame is open -/
  | enc
  /-- DEC: a DECODE frame is open and no error has been seen -/
  | dec
  /-- DRAIN: a failed frame still has input items to discard -/
  | drain
  /-- RESP: the frame is complete and its response waits -/
  | resp
  deriving DecidableEq, Repr

/-- The state. The first eleven fields are "exactly" the registers of 10_state R21. The next five are what the host
drives at the core's pins, and the last two record what crossed the boundary (logs 2 and 3). -/
structure State where
  /-- ST (R23) -/
  st : Mode
  /-- OP, 4 bits (R24) -/
  op : OpCode
  /-- REM, 28 bits: items of the frame not yet accepted (R25) -/
  rem : FrameLen
  /-- ACC, 33 bits (R26) -/
  acc : BitVec 33
  /-- GCNT, 3 bits: items of the current group accepted so far (R27) -/
  gcnt : BitVec 3
  /-- OBUF[0..4] (R28) -/
  obuf : Vector Byte 5
  /-- OLEN, 3 bits (R29) -/
  olen : BitVec 3
  /-- OIDX, 3 bits (R29) -/
  oidx : BitVec 3
  /-- STATUS, 4 bits (R30) -/
  status : StatusCode
  /-- INFO, 8 bits (R31) -/
  info : Byte
  /-- OCNT, 32 bits (R32) -/
  ocnt : BitVec 32
  /-- rst, as the host drives it (20_memory R55) -/
  rst : Bool
  /-- the command words the host presents, in order: cmd_valid is "not empty", cmd_data the head (20_memory R55) -/
  cmdIn : List CmdWord
  /-- the input items the host presents, in order: in_valid is "not empty", in_data the head (20_memory R55) -/
  itemIn : List Byte
  /-- out_ready, as the host drives it (20_memory R55) -/
  outReady : Bool
  /-- rsp_ready, as the host drives it (20_memory R55) -/
  rspReady : Bool
  /-- the output items delivered so far, oldest first (40_frame_control R112) -/
  itemOut : List Byte
  /-- the response words delivered so far, oldest first (40_frame_control R112) -/
  rspOut : List RspWord
  deriving DecidableEq, Repr

/-- Why no step is taken. None of these is an error of the core, which never traps (60_exceptions R200): each names a
state in which the spec has no step. Every one is safe: the model stops where the hardware waits. -/
inductive Fault where
  /-- Raised by a command's meaning when ST ≠ IDLE: the command waits, nothing is dropped (40_frame_control R101,
  R102). Safe. -/
  | commandWaits
  /-- Raised by `step` in IDLE when the host presents no command (60_exceptions R219, 93 U19). Safe. -/
  | noCommand
  /-- Raised by `step` when in_ready is up and the host presents no item (40_frame_control R111, 93 U17). Safe. -/
  | noInputItem
  /-- Raised by `step` when out_valid is up and the host does not raise out_ready (40_frame_control R111, 93 U17).
  Safe. -/
  | outputNotAccepted
  /-- Raised by `step` when rsp_valid is up and the host does not raise rsp_ready (40_frame_control R111, 93 U17).
  Safe. -/
  | responseNotAccepted
  /-- Raised by the frame steps in register values that no run from reset leaves (10_state R37): a rule's
  precondition fails, or a register would be written a value it cannot hold, which 00_scope R9 calls a specification
  error. "The model has no step from a state that reset has not produced" (70 R233, 93 U21). Safe. -/
  | unreachableState
  deriving DecidableEq, Repr

/-- Why an instruction has no meaning. -/
inductive Refusal where
  /-- Raised only by an arm of `exec` whose instruction is not modelled yet. No arm is. Safe. -/
  | notModelled (mnemonic : String)
  deriving DecidableEq, Repr

/-- What a step or a meaning answers. -/
abbrev Result := Host.Outcome State Fault Refusal

/-- The state right after reset (10_state R21, 70 R230): ST = IDLE, every register 0. The host's side is the eager
host of 95_test_vectors section 3, with nothing presented and nothing delivered yet (logs 2 and 3). -/
def State.reset : State where
  st := .idle
  op := 0x0
  rem := 0
  acc := 0
  gcnt := 0
  obuf := Vector.replicate 5 0x00
  olen := 0
  oidx := 0
  status := 0
  info := 0x00
  ocnt := 0
  rst := false
  cmdIn := []
  itemIn := []
  outReady := true
  rspReady := true
  itemOut := []
  rspOut := []

end Sys2Proof.Machine
end

