-- ==== Sys2Proof/Machine/Rom.lean ====
section
/-! DEFINITION. The two read-only memories (20_memory R50 to R53, contents 30_encoding R80 and R81), and what a
generator that takes the alphabet as an argument builds (00_scope R8, 60_exceptions R204). -/

namespace Sys2Proof.Machine

/-- SYM_ROM, entries 0 to 84: the ASCII codes of the alphabet, in order of value (30_encoding R80). -/
def symRom : List Byte :=
  -- 0 to 9: the digits
  [0x30, 0x31, 0x32, 0x33, 0x34, 0x35, 0x36, 0x37, 0x38, 0x39] ++
  -- 10 to 35: a to z
  [0x61, 0x62, 0x63, 0x64, 0x65, 0x66, 0x67, 0x68, 0x69, 0x6A, 0x6B, 0x6C, 0x6D] ++
  [0x6E, 0x6F, 0x70, 0x71, 0x72, 0x73, 0x74, 0x75, 0x76, 0x77, 0x78, 0x79, 0x7A] ++
  -- 36 to 61: A to Z
  [0x41, 0x42, 0x43, 0x44, 0x45, 0x46, 0x47, 0x48, 0x49, 0x4A, 0x4B, 0x4C, 0x4D] ++
  [0x4E, 0x4F, 0x50, 0x51, 0x52, 0x53, 0x54, 0x55, 0x56, 0x57, 0x58, 0x59, 0x5A] ++
  -- 62 to 84: the marks
  [0x2E, 0x2D, 0x3A, 0x2B, 0x3D, 0x7E, 0x21, 0x2F, 0x2A, 0x3F, 0x26, 0x5F] ++
  [0x2C, 0x28, 0x29, 0x5B, 0x5D, 0x7B, 0x7D, 0x40, 0x3B, 0x24, 0x23]

/-- VAL_ROM, entries 0x20 to 0x7F, one line per high digit as in 30_encoding R81. -/
def valRomPrintable : List Byte :=
  -- 2x
  [0x00, 0xC4, 0x00, 0xD4, 0xD3, 0x00, 0xC8, 0x00, 0xCB, 0xCC, 0xC6, 0xC1, 0xCA, 0xBF, 0xBE, 0xC5] ++
  -- 3x
  [0x80, 0x81, 0x82, 0x83, 0x84, 0x85, 0x86, 0x87, 0x88, 0x89, 0xC0, 0xD2, 0x00, 0xC2, 0x00, 0xC7] ++
  -- 4x
  [0xD1, 0xA4, 0xA5, 0xA6, 0xA7, 0xA8, 0xA9, 0xAA, 0xAB, 0xAC, 0xAD, 0xAE, 0xAF, 0xB0, 0xB1, 0xB2] ++
  -- 5x
  [0xB3, 0xB4, 0xB5, 0xB6, 0xB7, 0xB8, 0xB9, 0xBA, 0xBB, 0xBC, 0xBD, 0xCD, 0x00, 0xCE, 0x00, 0xC9] ++
  -- 6x
  [0x00, 0x8A, 0x8B, 0x8C, 0x8D, 0x8E, 0x8F, 0x90, 0x91, 0x92, 0x93, 0x94, 0x95, 0x96, 0x97, 0x98] ++
  -- 7x
  [0x99, 0x9A, 0x9B, 0x9C, 0x9D, 0x9E, 0x9F, 0xA0, 0xA1, 0xA2, 0xA3, 0xCF, 0x00, 0xD0, 0xC3, 0x00]

/-- VAL_ROM, all 256 entries: rows 0x, 1x and 8x to Fx of 30_encoding R81 hold 0x00. -/
def valRom : List Byte :=
  List.replicate 32 0x00 ++ valRomPrintable ++ List.replicate 128 0x00

/-- `SymLut(v)`: SYM_ROM entry v (20_memory R51). Past address 84 the contents are unspecified: the free value. -/
def symLut (v : Nat) : Byte :=
  match symRom[v]? with
  | some c => c
  | none => Config.symRomBeyond v

/-- `ValLut(c)`: VAL_ROM entry c (20_memory R53). -/
def valLut (c : Byte) : Byte := valRom.getD c.toNat 0x00

/-- The valid bit, bit 7 of a VAL_ROM entry: the code is an alphabet character's (20_memory R53). -/
def isSymbol (c : Byte) : Bool := (valLut c).getLsbD 7

/-- Bits [6:0] of a VAL_ROM entry: the character's value (20_memory R53, 30_encoding R77). -/
def symbolValue (c : Byte) : Nat := ((valLut c).extractLsb' 0 7).toNat

/-- VAL_ROM as R81 defines it from an alphabet: entry c is `0x80 | v` when c is the code of character v, else 0x00. -/
def valRomOf (alphabet : List Byte) : List Byte :=
  (List.range 256).map fun c =>
    match alphabet.findIdx? (· == BitVec.ofNat 8 c) with
    | some v => 0x80 ||| BitVec.ofNat 8 v
    | none => 0x00

/-- The ROM pair a generator builds, or no machine at all: INVALID_ALPHABET is refused at construction
(00_scope R8, 60_exceptions R204). -/
def buildRoms (p : Config.Params) : Option (List Byte × List Byte) :=
  if p.legal then some (p.alphabet, valRomOf p.alphabet) else none

/-- The configuration of this core: the fixed alphabet and the pad digit 84 (00_scope R3, R7). -/
def coreParams : Config.Params := ⟨symRom, Config.padDigit⟩

end Sys2Proof.Machine
end

