-- ==== Sys2Proof/Machine/Flags.lean ====
section
/-! DEFINITION. The four channel flags and the two output buses (10_state R33), the status codes and the response
word (30_encoding R75, R76). The core has no condition-code register (10_state R33). -/

namespace Sys2Proof.Machine

/-- Status code 0, OK (30_encoding R76). -/
abbrev codeOk : StatusCode := 0

/-- Status code 1, INVALID_LENGTH (30_encoding R76). -/
abbrev codeInvalidLength : StatusCode := 1

/-- Status code 2, INVALID_SYMBOL (30_encoding R76). -/
abbrev codeInvalidSymbol : StatusCode := 2

/-- Status code 3, ILLEGAL_COMMAND (30_encoding R76). -/
abbrev codeIllegalCommand : StatusCode := 3

/-- Status code 4, INVALID_ALPHABET: never produced by this core (30_encoding R76, 60_exceptions R204). -/
abbrev codeInvalidAlphabet : StatusCode := 4

/-- cmd_ready (10_state R33). -/
def cmdReady (s : State) : Bool := s.st == .idle

/-- in_ready (10_state R33). -/
def inReady (s : State) : Bool :=
  ((s.st == .enc || s.st == .dec) && s.olen == 0 && s.rem != 0) || (s.st == .drain && s.rem != 0)

/-- out_valid (10_state R33). -/
def outValid (s : State) : Bool :=
  (s.st == .enc || s.st == .dec) && decide (s.oidx.toNat < s.olen.toNat)

/-- rsp_valid (10_state R33). -/
def rspValid (s : State) : Bool := s.st == .resp

/-- A response word from its three fields: STATUS [63:60], zero [59:56], INFO [55:48], zero [47:32], OCNT [31:0]
(30_encoding R75). -/
def rspWord (status : StatusCode) (info : Byte) (ocnt : BitVec 32) : RspWord :=
  status ++ 0b0000#4 ++ info ++ 0x0000#16 ++ ocnt

/-- rsp_data (10_state R33). -/
def rspData (s : State) : RspWord := rspWord s.status s.info s.ocnt

/-- out_data, OBUF[OIDX], where the buffer has that entry (10_state R33: "meaningful only when out_valid"). -/
def outData (s : State) : Option Byte := s.obuf[s.oidx.toNat]?

end Sys2Proof.Machine
end

