-- ==== Sys2Proof/Machine/Operands.lean ====
section
/-! DEFINITION. Operands: how an item enters the datapath (30_encoding R77), the arithmetic of a byte group
(41_encode R131 to R135) and of a symbol group (42_decode R161 to R165). All on naturals (00_scope R9). -/

namespace Sys2Proof.Machine

/-- The pack value p of R131: ACC[31:0] plus the byte at its big-endian place, `x · 2^(8·(3 − GCNT))`. -/
def packByte (acc : Nat) (gcnt : Nat) (x : Byte) : Nat :=
  acc % 2 ^ 32 + x.toNat * 2 ^ (8 * (3 - gcnt))

/-- `rounds` rounds of R134: each puts the next less significant digit in front of those already found. -/
def digitRounds : Nat → Nat → List Nat → List Nat
  | 0, _, ds => ds
  | r + 1, v, ds => digitRounds r (v / Config.radix) (v % Config.radix :: ds)

/-- digits85(p): the five base-85 digits of p, most significant first (41_encode R134). -/
def digits85 (p : Nat) : List Nat := digitRounds 5 p []

/-- The symbols a completed byte group of n bytes emits: d[0..n] through SYM_ROM (41_encode R133, R135). -/
def groupSymbols (p n : Nat) : List Byte := ((digits85 p).take (n + 1)).map symLut

/-- One multiply-accumulate step of the decoder: `ACC · 85 + e[6:0]` (42_decode R161). -/
def accumulate (acc : Nat) (x : Byte) : Nat := acc * Config.radix + symbolValue x

/-- `k` rounds of the pad loop of 42_decode R163: `v · 85 + 84`. -/
def padRounds : Nat → Nat → Nat
  | 0, v => v
  | k + 1, v => padRounds k (v * Config.radix + Config.padDigit)

/-- The padded value v of a completed group of L digits (42_decode R163: j in L..4). -/
def padValue (a L : Nat) : Nat := padRounds (Config.decGroupLen - L) a

/-- The big-endian unpacker: w = v[31:0], then byte[0..3] (42_decode R163, R165). Bit 32 is dropped by the slice. -/
def unpackBytes (v : Nat) : List Byte :=
  let w : BitVec 32 := BitVec.ofNat 32 v
  [w.extractLsb' 24 8, w.extractLsb' 16 8, w.extractLsb' 8 8, w.extractLsb' 0 8]

/-- The bytes a completed symbol group of L symbols delivers: byte[0..L−2] (42_decode R163, R164). -/
def groupBytes (a L : Nat) : List Byte := (unpackBytes (padValue a L)).take (L - 1)

/-- OBUF with its first entries overwritten by `items`; an entry past them keeps its value (10_state R28). -/
def overwriteObuf (obuf : Vector Byte 5) (items : List Byte) : Vector Byte 5 :=
  Vector.ofFn fun i => items.getD i.val obuf[i]

end Sys2Proof.Machine
end

