-- ==== Sys2Proof/Machine/Ops.lean ====
section
/-! DEFINITION. The named operations on the state that the steps share: the channels, opening a frame, the error
entry and its return, the group's output, and reset. -/

namespace Sys2Proof.Machine

/-- The command word leaves the host's side: it is accepted (20_memory R55, 40_frame_control R101). -/
def popCommand (s : State) : State := { s with cmdIn := s.cmdIn.tail }

/-- `take()`: the input item leaves the host's side: it is accepted (20_memory R56). -/
def popItem (s : State) : State := { s with itemIn := s.itemIn.tail }

/-- `give(x)`, and the count of it: an item is delivered on the output channel (20_memory R57, 10_state R32). -/
def give (x : Byte) (s : State) : State :=
  { s with itemOut := s.itemOut ++ [x], ocnt := s.ocnt + 1 }

/-- `REM <- REM − 1`: an input item was accepted (10_state R25). -/
def countItem (s : State) : State := { s with rem := s.rem - 1 }

/-- `ACC <- 0`, `GCNT <- 0`: the group is closed (41_encode R131, 42_decode R161). -/
def clearGroup (s : State) : State := { s with acc := 0, gcnt := 0 }

/-- The group stays open: ACC holds its value and GCNT its number of items (41_encode R131, 42_decode R161). -/
def holdGroup (value items : Nat) (s : State) : State :=
  { s with acc := BitVec.ofNat 33 value, gcnt := BitVec.ofNat 3 items }

/-- After a group's last output item: OLEN and OIDX return to 0, and a frame without items left goes to RESP
(40_frame_control R104). -/
def closeOutput (s : State) : State :=
  { s with olen := 0, oidx := 0, st := if s.rem = 0 then .resp else s.st }

/-- After an output item with another behind it (40_frame_control R104). -/
def nextOutput (s : State) : State := { s with oidx := s.oidx + 1 }

/-- A drained item: REM is decremented, and the frame's last item moves ST to RESP (40_frame_control R107). -/
def discardItem (s : State) : State :=
  { s with rem := s.rem - 1, st := if s.rem = 1 then .resp else s.st }

/-- The writes of CmdXfer that every operation shares (40_frame_control R101). OBUF is not written; STATUS, INFO and
ST are written by the operation's own acceptance part. -/
def openFrame (op : OpCode) (len : FrameLen) (s : State) : State :=
  { s with op := op, rem := len, acc := 0, gcnt := 0, olen := 0, oidx := 0, ocnt := 0 }

/-- The acceptance part of a frame that starts without an error: STATUS OK, INFO 0, and RESP at once when there is no
item, else the frame's own state (41_encode R140, 42_decode R166). -/
def startFrame (mode : Mode) (len : FrameLen) (s : State) : State :=
  { s with status := codeOk, info := 0x00, st := if len = 0 then .resp else mode }

/-- ERROR ENTRY, the core's `fail(code, info)` (60_exceptions R207): STATUS and INFO record the error, the partial
group is discarded, and the controller drains the `left` items the frame still has, or responds when there is none.
The errors raised at acceptance act "to the same effect" (R207), on a group that is already 0 (log 18). -/
def errorEntry (code : StatusCode) (info : Byte) (left : FrameLen) (s : State) : State :=
  { s with status := code, info := info, acc := 0, gcnt := 0, st := if left = 0 then .resp else .drain }

/-- ERROR RETURN and normal completion are one step, RspXfer: the response word is delivered and the core is IDLE
again; every other register keeps its value (40_frame_control R106, 60_exceptions R210). -/
def deliverResponse (s : State) : State :=
  { s with st := .idle, rspOut := s.rspOut ++ [rspData s] }

/-- A converted group's items await delivery: OBUF[0..n−1], OLEN, OIDX (41_encode R133, 42_decode R163). -/
def loadOutput (items : List Byte) (s : State) : State :=
  { s with obuf := overwriteObuf s.obuf items, olen := BitVec.ofNat 3 items.length, oidx := 0 }

/-- Reset: every register takes its reset value; no transfer takes place, and what the host drives and what was
delivered before are not the core's to change (70 R230, R232). -/
def resetRegs (s : State) : State :=
  { State.reset with
    rst := s.rst, cmdIn := s.cmdIn, itemIn := s.itemIn, outReady := s.outReady, rspReady := s.rspReady,
    itemOut := s.itemOut, rspOut := s.rspOut }

/-- CmdXfer (40_frame_control R101): enabled in IDLE only (R102); the shared writes, then the operation's acceptance
part. The step cannot fail. -/
def acceptCommand (op : OpCode) (len : FrameLen) (acceptance : State → State) (s : State) : Result :=
  if s.st = .idle then .next (acceptance (openFrame op len s)) else .fault .commandWaits

/-- A reserved operation (40_frame_control R110): ILLEGAL_COMMAND at acceptance, always, with INFO = OP. -/
def rejectCommand (op : OpCode) (len : FrameLen) (s : State) : Result :=
  acceptCommand op len (errorEntry codeIllegalCommand (op.zeroExtend 8) len) s

/-- OutXfer (40_frame_control R104): deliver OBUF[OIDX]. After the group's last item OLEN and OIDX return to 0, and
the frame's last group moves ST to RESP. OBUF has five entries and OCNT 32 bits; a state in which either does not
suffice is no state of a run (10_state R29, R32, log 5). -/
def outXfer (s : State) : Result :=
  if h : s.oidx.toNat < 5 ∧ s.ocnt.toNat + 1 < 2 ^ 32 then
    if s.oidx.toNat + 1 = s.olen.toNat then .next (closeOutput (give s.obuf[s.oidx.toNat] s))
    else .next (nextOutput (give s.obuf[s.oidx.toNat] s))
  else .fault .unreachableState

/-- InXfer in DRAIN (40_frame_control R107): the item is not inspected. -/
def drainItem (s : State) : Result := .next (discardItem s)

/-- RspXfer (40_frame_control R106). -/
def rspXfer (s : State) : Result := .next (deliverResponse s)

end Sys2Proof.Machine
end

