-- ==== Sys2Proof/Machine/DecodeFrame.lean ====
section
/-! DEFINITION. DECODE: its acceptance with the length check (42_decode R166, R170) and the decoder's input step
(R161 to R165, R167). -/

namespace Sys2Proof.Machine

/-- The acceptance part of DECODE (42_decode R166): the length check reads LEN alone. -/
def decodeAcceptance (len : FrameLen) (s : State) : State :=
  if len.toNat % Config.decGroupLen = 1 then errorEntry codeInvalidLength 0x00 len s
  else startFrame .dec len s

/-- DECODE (42_decode R170): the acceptance part, run inside CmdXfer. -/
def execDecode (len : FrameLen) (s : State) : Result :=
  acceptCommand 0x2 len (decodeAcceptance len) s

/-- complete(a, L) (42_decode R163), "where a holds the L accumulated digits (a < 85^L) and 2 ≤ L ≤ 5". -/
def completeGroup (a L : Nat) (s : State) : Result :=
  if a < Config.radix ^ L ∧ 2 ≤ L ∧ L ≤ 5 then .next (loadOutput (groupBytes a L) s)
  else .fault .unreachableState

/-- InXfer(x) in DEC (42_decode R161): a non-alphabet item fails the frame (R167); a symbol is accumulated, and the
group completes at its 5th symbol or at the frame's last (R162). GCNT is 0..4 and ACC below 85^GCNT in every state of
a run (10_state R26, R27, log 5). -/
def decodeItem (x : Byte) (s : State) : Result :=
  if isSymbol x = false then .next (errorEntry codeInvalidSymbol x (s.rem - 1) (countItem s))
  else if s.gcnt.toNat ≤ 4 then
    let a := accumulate s.acc.toNat x
    let L := s.gcnt.toNat + 1
    if L = Config.decGroupLen ∨ s.rem = 1 then completeGroup a L (clearGroup (countItem s))
    else if a < 2 ^ 33 then .next (holdGroup a L (countItem s))
    else .fault .unreachableState
  else .fault .unreachableState

end Sys2Proof.Machine
end

