-- ==== Sys2Proof/Machine/EncodeFrame.lean ====
section
/-! DEFINITION. ENCODE: its acceptance (41_encode R140) and the encoder's input step (R131 to R133). -/

namespace Sys2Proof.Machine

/-- ENCODE (41_encode R140): the acceptance part, run inside CmdXfer. ENCODE cannot fail. -/
def execEncode (len : FrameLen) (s : State) : Result :=
  acceptCommand 0x1 len (startFrame .enc len) s

/-- convert(p, n) (41_encode R133), "with p < 2^32 and n in 1..4". -/
def convertGroup (p n : Nat) (s : State) : Result :=
  if p < 2 ^ 32 ∧ 1 ≤ n ∧ n ≤ 4 then .next (loadOutput (groupSymbols p n) s)
  else .fault .unreachableState

/-- InXfer(x) in ENC (41_encode R131): pack one byte. The group completes at its 4th byte or at the frame's last
(R132). GCNT is 0..3 in every state of a run (10_state R27, log 5). -/
def encodeItem (x : Byte) (s : State) : Result :=
  if s.gcnt.toNat ≤ 3 then
    let p := packByte s.acc.toNat s.gcnt.toNat x
    let n := s.gcnt.toNat + 1
    if n = Config.encGroupLen ∨ s.rem = 1 then convertGroup p n (clearGroup (countItem s))
    else .next (holdGroup p n (countItem s))
  else .fault .unreachableState

end Sys2Proof.Machine
end

