-- ==== Sys2Proof/Machine/Illegal.lean ====
section
/-! DEFINITION. The 14 reserved operations (40_frame_control R110): one meaning each over the shared rejection. -/

namespace Sys2Proof.Machine

/-- ILLEGAL.0x0 (40_frame_control R110). -/
def execIllegal0 (len : FrameLen) (s : State) : Result := rejectCommand 0x0 len s

/-- ILLEGAL.0x3 (40_frame_control R110). -/
def execIllegal3 (len : FrameLen) (s : State) : Result := rejectCommand 0x3 len s

/-- ILLEGAL.0x4 (40_frame_control R110). -/
def execIllegal4 (len : FrameLen) (s : State) : Result := rejectCommand 0x4 len s

/-- ILLEGAL.0x5 (40_frame_control R110). -/
def execIllegal5 (len : FrameLen) (s : State) : Result := rejectCommand 0x5 len s

/-- ILLEGAL.0x6 (40_frame_control R110). -/
def execIllegal6 (len : FrameLen) (s : State) : Result := rejectCommand 0x6 len s

/-- ILLEGAL.0x7 (40_frame_control R110). -/
def execIllegal7 (len : FrameLen) (s : State) : Result := rejectCommand 0x7 len s

/-- ILLEGAL.0x8 (40_frame_control R110). -/
def execIllegal8 (len : FrameLen) (s : State) : Result := rejectCommand 0x8 len s

/-- ILLEGAL.0x9 (40_frame_control R110). -/
def execIllegal9 (len : FrameLen) (s : State) : Result := rejectCommand 0x9 len s

/-- ILLEGAL.0xA (40_frame_control R110). -/
def execIllegalA (len : FrameLen) (s : State) : Result := rejectCommand 0xA len s

/-- ILLEGAL.0xB (40_frame_control R110). -/
def execIllegalB (len : FrameLen) (s : State) : Result := rejectCommand 0xB len s

/-- ILLEGAL.0xC (40_frame_control R110). -/
def execIllegalC (len : FrameLen) (s : State) : Result := rejectCommand 0xC len s

/-- ILLEGAL.0xD (40_frame_control R110). -/
def execIllegalD (len : FrameLen) (s : State) : Result := rejectCommand 0xD len s

/-- ILLEGAL.0xE (40_frame_control R110). -/
def execIllegalE (len : FrameLen) (s : State) : Result := rejectCommand 0xE len s

/-- ILLEGAL.0xF (40_frame_control R110). -/
def execIllegalF (len : FrameLen) (s : State) : Result := rejectCommand 0xF len s

end Sys2Proof.Machine
end

