-- ==== Sys2Proof/Machine/Dispatch.lean ====
section
/-! DEFINITION. One arm per command (30_encoding R73): the acceptance of a command word. -/

namespace Sys2Proof.Machine

def exec (i : Instr) (s : State) : Host.Outcome State Fault Refusal :=
  match i with
  | .encode len => Sys2Proof.Machine.execEncode len s
  | .decode len => Sys2Proof.Machine.execDecode len s
  | .illegal0 len => Sys2Proof.Machine.execIllegal0 len s
  | .illegal3 len => Sys2Proof.Machine.execIllegal3 len s
  | .illegal4 len => Sys2Proof.Machine.execIllegal4 len s
  | .illegal5 len => Sys2Proof.Machine.execIllegal5 len s
  | .illegal6 len => Sys2Proof.Machine.execIllegal6 len s
  | .illegal7 len => Sys2Proof.Machine.execIllegal7 len s
  | .illegal8 len => Sys2Proof.Machine.execIllegal8 len s
  | .illegal9 len => Sys2Proof.Machine.execIllegal9 len s
  | .illegalA len => Sys2Proof.Machine.execIllegalA len s
  | .illegalB len => Sys2Proof.Machine.execIllegalB len s
  | .illegalC len => Sys2Proof.Machine.execIllegalC len s
  | .illegalD len => Sys2Proof.Machine.execIllegalD len s
  | .illegalE len => Sys2Proof.Machine.execIllegalE len s
  | .illegalF len => Sys2Proof.Machine.execIllegalF len s

end Sys2Proof.Machine
end

