-- ==== Sys2Proof/Machine/Transfer.lean ====
section
/-! DEFINITION. The five kinds of step (40_frame_control R100): which one is enabled, and what each does. -/

namespace Sys2Proof.Machine

/-- The kinds of step of 40_frame_control R100, and the absence of one. -/
inductive Transfer where
  /-- Reset: rst = 1 -/
  | reset
  /-- CmdXfer(w) -/
  | command (w : CmdWord)
  /-- InXfer(x) -/
  | input (x : Byte)
  /-- OutXfer -/
  | output
  /-- RspXfer -/
  | response
  /-- no step is enabled, and why -/
  | none (why : Fault)
  deriving DecidableEq, Repr

/-- The step that the registers and the host enable (40_frame_control R100). Reset takes precedence over every
transfer (60_exceptions R212). At most one flag is up (10_state R37 item 8), so the order of the four questions does
not matter; with none up the state is no state of a run (95 section 2.5, log 5). -/
def enabledTransfer (s : State) : Transfer :=
  if s.rst then .reset
  else if cmdReady s then
    match s.cmdIn with
    | w :: _ => .command w
    | [] => .none .noCommand
  else if inReady s then
    match s.itemIn with
    | x :: _ => .input x
    | [] => .none .noInputItem
  else if outValid s then if s.outReady then .output else .none .outputNotAccepted
  else if rspValid s then if s.rspReady then .response else .none .responseNotAccepted
  else .none .unreachableState

/-- InXfer(x), by ST (40_frame_control R100). IDLE and RESP have no InXfer: in_ready is 0 there. -/
def inXfer (x : Byte) (s : State) : Result :=
  match s.st with
  | .enc => encodeItem x s
  | .dec => decodeItem x s
  | .drain => drainItem s
  | .idle => .fault .unreachableState
  | .resp => .fault .unreachableState

/-- What a kind of step does (40_frame_control R100). An accepted command or item leaves the host's side. -/
def fire (t : Transfer) (s : State) : Result :=
  match t with
  | .reset => .next (resetRegs s)
  | .command w => exec (decodeWord w) (popCommand s)
  | .input x => inXfer x (popItem s)
  | .output => outXfer s
  | .response => rspXfer s
  | .none why => .fault why

/-- The host presents the command word of `nbits` bits and value `w` so that the very next step accepts it: the word
is at the head of the command channel, rst is low, and the core is in IDLE, the one state that accepts (log 8). -/
def presentFetch (s : State) (nbits w : Nat) : State :=
  { s with st := .idle, rst := false, cmdIn := BitVec.ofNat 32 (w % 2 ^ nbits) :: s.cmdIn }

end Sys2Proof.Machine
end

