-- ==== Sys2Proof/Machine/Step.lean ====
section
/-! DEFINITION. One step: the enabled transfer, or the reason there is none (40_frame_control R100, R112). -/

namespace Sys2Proof.Machine

/-- One step of the machine. The next state is a function of the current state, which holds what the host presents
(40_frame_control R100). -/
def step (s : State) : Host.Outcome State Fault Refusal := fire (enabledTransfer s) s

/-- `s` with the word presented where `step` takes its next command. -/
def State.withFetchWord (s : State) (nbits w : Nat) : State := presentFetch s nbits w

end Sys2Proof.Machine
end

