-- ==== Sys2Proof/Machine/Frames.lean ====
section
/-! DEFINITION. The frame functions: Enc (41_encode R141, R142), Dec (42_decode R170, R171), the result of a reserved
frame (40_frame_control R110), and runs of several steps. They say what a whole frame delivers, apart from how the
steps get there. -/

namespace Sys2Proof.Machine

/-- A byte of a group at its big-endian place: `b · 2^(8·(3 − i))` (41_encode R141). -/
def placeByte (b : Byte) (i : Nat) : Nat := b.toNat * 2 ^ (8 * (3 - i))

/-- The packed value of a byte group: the sum of its placed bytes, absent bytes 0 (41_encode R141, R132). -/
def packGroup (g : List Byte) : Nat := (g.mapIdx fun i b => placeByte b i).sum

/-- The symbols of one byte group (41_encode R141). -/
def encGroup (g : List Byte) : List Byte := groupSymbols (packGroup g) g.length

/-- Enc, the frame function of ENCODE (41_encode R141): groups of four from the start of the frame, a shorter last
one. -/
def enc : List Byte → List Byte
  | a :: b :: c :: d :: rest => encGroup [a, b, c, d] ++ enc rest
  | [] => []
  | g => encGroup g

/-- |Enc(b)| for |b| = N, the length relation of 41_encode R142. -/
def encLength (N : Nat) : Nat := 5 * (N / 4) + if N % 4 = 0 then 0 else N % 4 + 1

/-- The output length of an OK decode of M symbols (42_decode R171). -/
def decLength (M : Nat) : Nat := 4 * (M / 5) + if M % 5 = 0 then 0 else M % 5 - 1

/-- What a frame ends with: STATUS, INFO and the output items delivered (42_decode R170). -/
structure FrameResult where
  status : StatusCode
  info   : Byte
  out    : List Byte
  deriving DecidableEq, Repr

/-- The digit at position i of a symbol group: the symbol's value, or 84 past the group's end (42_decode R170). -/
def groupDigit (g : List Byte) (i : Nat) : Nat :=
  match g[i]? with
  | some c => symbolValue c
  | none => Config.padDigit

/-- v of a symbol group: `Σ dig(i) · 85^(4−i)` for i below 5 (42_decode R170). -/
def groupValue (g : List Byte) : Nat :=
  ((List.range 5).map fun i => groupDigit g i * Config.radix ^ (4 - i)).sum

/-- The bytes of one symbol group: w = v mod 2^32, big-endian, the first L − 1 (42_decode R170). -/
def decGroup (g : List Byte) : List Byte := (unpackBytes (groupValue g % 2 ^ 32)).take (g.length - 1)

/-- The loop of Dec over the groups, `out` so far: the first non-alphabet item in input order ends it
(42_decode R168, R170). -/
def decLoop : List Byte → List Byte → FrameResult
  | out, a :: b :: c :: d :: e :: rest =>
    match [a, b, c, d, e].find? fun x => !isSymbol x with
    | some x => ⟨codeInvalidSymbol, x, out⟩
    | none => decLoop (out ++ decGroup [a, b, c, d, e]) rest
  | out, [] => ⟨codeOk, 0x00, out⟩
  | out, g =>
    match g.find? fun x => !isSymbol x with
    | some x => ⟨codeInvalidSymbol, x, out⟩
    | none => ⟨codeOk, 0x00, out ++ decGroup g⟩

/-- Dec, the frame function of DECODE (42_decode R170). -/
def dec (s : List Byte) : FrameResult :=
  if s.length % 5 = 1 then ⟨codeInvalidLength, 0x00, []⟩ else decLoop [] s

/-- The result of a whole frame, by its command: Enc, Dec, or the rejection of a reserved operation
(41_encode R140, 42_decode R170, 40_frame_control R110). -/
def frameResult (f : Frame) : FrameResult :=
  match decodeWord f.cmd with
  | .encode _ => ⟨codeOk, 0x00, enc f.items⟩
  | .decode _ => dec f.items
  | i => ⟨codeIllegalCommand, (opOf i).zeroExtend 8, []⟩

/-- The response of a frame with this result: OCNT is the number of items delivered (30_encoding R75). -/
def FrameResult.response (r : FrameResult) : RspWord :=
  rspWord r.status r.info (BitVec.ofNat 32 r.out.length)

/-- The number of transfers a frame takes: LEN + OCNT + 2, command and response counted (70 R251). -/
def frameTransfers (f : Frame) : Nat := f.items.length + (frameResult f).out.length + 2

/-- `n` steps, stopping at the first that is not taken. -/
def run : Nat → State → Result
  | 0, s => .next s
  | n + 1, s =>
    match step s with
    | .next t => run n t
    | .fault r => .fault r
    | .refused r => .refused r

/-- A canonical symbol group: one that Enc can emit for a group of bytes (41_encode R146). -/
def canonicalGroup (g : List Byte) : Prop :=
  ∃ b : List Byte, 1 ≤ b.length ∧ b.length ≤ 4 ∧ encGroup b = g

end Sys2Proof.Machine
end

