-- ==== Sys2Proof/Machine/HostSide.lean ====
section
/-! DEFINITION. The host: what it may do between two steps (60_exceptions R220, 20_memory R58), and how it reads a
response (30_encoding R76, 60_exceptions R209). -/

namespace Sys2Proof.Machine

/-- What the host may do between two steps. The core's registers are not its to change. -/
inductive HostAct where
  /-- present one more command word, behind those already presented (40_frame_control R102) -/
  | presentCommand (w : CmdWord)
  /-- present one more input item, behind those already presented (20_memory R64) -/
  | presentItem (x : Byte)
  /-- change what is presented before its transfer, against the duty of 20_memory R58: the item at the head in the
  transfer is the one taken (93 U6, log 14) -/
  | changeCommands (ws : List CmdWord)
  /-- the same on the input channel -/
  | changeItems (xs : List Byte)
  /-- drive out_ready -/
  | driveOutReady (b : Bool)
  /-- drive rsp_ready -/
  | driveRspReady (b : Bool)
  /-- drive rst -/
  | driveRst (b : Bool)
  deriving DecidableEq, Repr

/-- The state after a host act (60_exceptions R220). -/
def hostAct (a : HostAct) (s : State) : State :=
  match a with
  | .presentCommand w => { s with cmdIn := s.cmdIn ++ [w] }
  | .presentItem x => { s with itemIn := s.itemIn ++ [x] }
  | .changeCommands ws => { s with cmdIn := ws }
  | .changeItems xs => { s with itemIn := xs }
  | .driveOutReady b => { s with outReady := b }
  | .driveRspReady b => { s with rspReady := b }
  | .driveRst b => { s with rst := b }

/-- More commands and items presented behind the ones already there (40_frame_control R102, 20_memory R64). -/
def presentMore (ws : List CmdWord) (xs : List Byte) (s : State) : State :=
  { s with cmdIn := s.cmdIn ++ ws, itemIn := s.itemIn ++ xs }

/-- The host offers a sequence of frames: their commands, and their items in the same order (20_memory R64). -/
def offerFrames (fs : List Frame) (s : State) : State :=
  presentMore (fs.map (·.cmd)) (fs.flatMap (·.items)) s

/-- What a host reads in a response (30_encoding R76, 93 U7; for code 4 log 24). -/
inductive Verdict where
  /-- OK: the output items are the frame's result -/
  | ok
  /-- INVALID_LENGTH -/
  | invalidLength
  /-- INVALID_SYMBOL, with the offending code -/
  | invalidSymbol (c : Byte)
  /-- ILLEGAL_COMMAND, with the reserved OP in INFO -/
  | illegalCommand (info : Byte)
  /-- a status code this core never produces. For 5 to 15, "treat it as a broken core, not as a success" (93 U7). For
  4 the spec says only that it is never produced (30_encoding R76, 93 U8): that a host reads it alike is the model's
  (DEDUCED, log 24) -/
  | brokenCore (code : StatusCode)
  deriving DecidableEq, Repr

/-- The STATUS field of a response, bits [63:60] (30_encoding R75). -/
def rspStatus (r : RspWord) : StatusCode := r.extractLsb' 60 4

/-- The INFO field of a response, bits [55:48] (30_encoding R75). -/
def rspInfo (r : RspWord) : Byte := r.extractLsb' 48 8

/-- The OCNT field of a response, bits [31:0] (30_encoding R75). -/
def rspCount (r : RspWord) : BitVec 32 := r.extractLsb' 0 32

/-- The host's reading of a response (30_encoding R76). -/
def verdict (r : RspWord) : Verdict :=
  match (rspStatus r).toNat with
  | 0 => .ok
  | 1 => .invalidLength
  | 2 => .invalidSymbol (rspInfo r)
  | 3 => .illegalCommand (rspInfo r)
  | _ => .brokenCore (rspStatus r)

/-- The result of a frame as the host may use it: with an OK response the items delivered, with any other nothing,
"No partial results are returned on failure" (60_exceptions R209, 70 R244). -/
def hostResult (r : RspWord) (delivered : List Byte) : Option (List Byte) :=
  if verdict r = .ok then some delivered else none

/-- A character the host may present to DECODE: its code fits in 8 bits; any other the host refuses before the frame
(30_encoding R74, 92 D5, 93 U14). -/
def itemOfCode (code : Nat) : Option Byte := if code < 2 ^ 8 then some (BitVec.ofNat 8 code) else none

end Sys2Proof.Machine
end

