-- ==== Sys2Proof/Machine/Assembler.lean ====
section
/-! DEFINITION. The host's program notation (30_encoding R90 to R92): its lines as text, the expansion of the
pseudo-commands, and assembly into frames. Used to write programs down; the core never sees it. Characters stand as
their codes. -/

namespace Sys2Proof.Machine

/-- The value of a hexadecimal digit character. -/
def hexDigit (c : Nat) : Option Nat :=
  if 0x30 ≤ c ∧ c ≤ 0x39 then some (c - 0x30)
  else if 0x41 ≤ c ∧ c ≤ 0x46 then some (c - 0x41 + 10)
  else if 0x61 ≤ c ∧ c ≤ 0x66 then some (c - 0x61 + 10)
  else none

/-- Digits in a base, most significant first, behind the value read so far. -/
def readDigits (base : Nat) : Nat → List Nat → Option Nat
  | v, [] => some v
  | v, c :: cs =>
    match hexDigit c with
    | some d => if d < base then readDigits base (v * base + d) cs else none
    | none => none

/-- A number: `0x` hexadecimal or decimal (30_encoding R90). `_` is not read (00_scope R9: legibility only). -/
def readNumber : List Nat → Option Nat
  | 0x30 :: 0x78 :: c :: cs => readDigits 16 0 (c :: cs)
  | c :: cs => readDigits 10 0 (c :: cs)
  | [] => none

/-- `<hex32>` of `.cmd`: `0x` and one to eight hexadecimal digits (30_encoding R90). -/
def readHexWord : List Nat → Option Nat
  | 0x30 :: 0x78 :: c :: cs => if cs.length < 8 then readDigits 16 0 (c :: cs) else none
  | _ => none

/-- A two-digit hexadecimal item of `.bytes` (30_encoding R91). -/
def readHexItem : List Nat → Option Nat
  | [a, b] => readDigits 16 0 [a, b]
  | _ => none

/-- The characters between the quotes of a text, from just after the opening one, and what stands behind the closing
one. `\"` and `\\` are the two escapes of 30_encoding R91. The rule does not say what a backslash before any other
character is; here the line is refused: DESIGN CHOICE, log 15. -/
def readQuoted : List Nat → Option (List Nat × List Nat)
  | 0x22 :: rest => some ([], rest)
  | 0x5C :: 0x22 :: rest => (readQuoted rest).map fun (cs, r) => (0x22 :: cs, r)
  | 0x5C :: 0x5C :: rest => (readQuoted rest).map fun (cs, r) => (0x5C :: cs, r)
  | 0x5C :: _ => none
  | c :: rest => (readQuoted rest).map fun (cs, r) => (c :: cs, r)
  | [] => none

/-- A space or a tab. -/
def isBlank (c : Nat) : Bool := c == 0x20 || c == 0x09

/-- The rest of a line holds nothing but blanks, or a comment behind them. That a comment may end a line is the
model's choice (DESIGN CHOICE, log 15). -/
def isTail (cs : List Nat) : Bool :=
  match cs.dropWhile isBlank with
  | [] => true
  | c :: _ => c == 0x3B

/-- The blank-separated words of the part of a line before any `;`. -/
def wordsOf (cs : List Nat) : List (List Nat) :=
  ((cs.takeWhile (· != 0x3B)).splitBy fun a b => isBlank a == isBlank b).filter fun w => !(w.all isBlank)

/-- The codes of a keyword. -/
def codes (s : String) : List Nat := s.toList.map (·.toNat)

/-- A quoted argument, alone on the rest of its line. -/
def readText (cs : List Nat) : Option (List Nat) :=
  match cs.dropWhile isBlank with
  | 0x22 :: rest =>
    match readQuoted rest with
    | some (text, tail) => if isTail tail then some text else none
    | none => none
  | _ => none

/-- A length argument, alone on the rest of its line. -/
def readOne (cs : List Nat) : Option Nat :=
  match wordsOf cs with
  | [w] => readNumber w
  | _ => none

/-- A `.cmd` argument, alone on the rest of its line. -/
def readCmd (cs : List Nat) : Option Nat :=
  match wordsOf cs with
  | [w] => readHexWord w
  | _ => none

/-- One line of a program (30_encoding R90 to R92). R90 knows a command statement, a data directive and a comment
that starts with `;`. An empty line or one of blanks alone is none of these: that it is read as a comment, and that
blanks may stand before a line's first word or its `;`, is the model's choice. So are three more points on which
R90 to R92 are silent: the quotes of ENCODE_TEXT are read with the escapes that R91 gives for `.text`; `.bytes` and
ENCODE_BYTES may stand with no number at all, as no items; and a keyword is read only as the spec spells it, with a
blank behind it (DESIGN CHOICE, log 15). -/
def readLine (cs : List Nat) : Option Line :=
  if isTail cs then some .comment
  else
    let body := cs.dropWhile isBlank
    let key := body.takeWhile fun c => !isBlank c
    let rest := body.dropWhile fun c => !isBlank c
    if key = codes "ENCODE" then (readOne rest).map .encode
    else if key = codes "DECODE" then (readOne rest).map .decode
    else if key = codes ".cmd" then (readCmd rest).map .cmd
    else if key = codes ".bytes" then ((wordsOf rest).mapM readHexItem).map .bytes
    else if key = codes ".text" then (readText rest).map .text
    else if key = codes "ENCODE_BYTES" then ((wordsOf rest).mapM readHexItem).map .encodeBytes
    else if key = codes "DECODE_TEXT" then (readText rest).map .decodeText
    else if key = codes "ENCODE_TEXT" then (readText rest).map .encodeText
    else if key = codes "DECODE_TO_TEXT" then (readText rest).map .decodeToText
    else none

/-- The expansion of a line (30_encoding R92). `utf8` is the host's text encoder, outside the core and outside this
spec (00_scope R2, R5), so it is an argument. -/
def expandLine (utf8 : List Nat → List Byte) : Line → List Line
  | .encodeBytes items => [.encode items.length, .bytes items]
  | .decodeText text => [.decode text.length, .text text]
  | .encodeText text => [.encode (utf8 text).length, .bytes ((utf8 text).map (·.toNat))]
  | .decodeToText text => [.decode text.length, .text text]
  | l => [l]

/-- The command word of a command statement (30_encoding R90): for a length of 28 bits the sum is the spec's
`0x1000_0000 | len`, and `0x2000_0000 | len`. -/
def lineCommand : Line → Option CmdWord
  | .encode len => some (BitVec.ofNat 32 (0x10000000 + len))
  | .decode len => some (BitVec.ofNat 32 (0x20000000 + len))
  | .cmd word => some (BitVec.ofNat 32 word)
  | _ => none

/-- The items of a data directive (30_encoding R91). -/
def lineItems : Line → List Byte
  | .bytes items => items.map (BitVec.ofNat 8)
  | .text text => text.map (BitVec.ofNat 8)
  | _ => []

/-- Put an item list in front of the first frame: the items read before that frame's command belong to the command
before it, or to none. -/
def gatherFrames : List Line → List Byte × List Frame
  | [] => ([], [])
  | l :: ls =>
    match lineCommand l with
    | some w => ([], ⟨w, (gatherFrames ls).1⟩ :: (gatherFrames ls).2)
    | none => (lineItems l ++ (gatherFrames ls).1, (gatherFrames ls).2)

/-- Assemble a program of expanded lines: every line is well formed, and the items after each command, before the
next one, number exactly its LEN (30_encoding R91). Of items before a program's first command the rule does not speak;
here a program that has some is refused: DESIGN CHOICE, log 15. -/
def assemble (ls : List Line) : Option (List Frame) :=
  if ls.all Line.wf && (gatherFrames ls).1.isEmpty && (gatherFrames ls).2.all Frame.wf then
    some (gatherFrames ls).2
  else none

/-- Assemble a program with pseudo-commands (30_encoding R92). The check is on the expanded lines, so an ENCODE_TEXT is
checked by the items its text encodes to, and which characters it may hold is left to `utf8` (DESIGN CHOICE,
log 15). -/
def assembleProgram (utf8 : List Nat → List Byte) (ls : List Line) : Option (List Frame) :=
  assemble (ls.flatMap (expandLine utf8))

/-- What DECODE_TO_TEXT gives the host: the text codec decodes the output bytes of an OK frame, and its failure is a
host-side decode error (30_encoding R92, 93 U15). `utf8Decode` is the host's text codec. -/
def decodeToTextResult (utf8Decode : List Byte → Option (List Nat)) (r : RspWord) (delivered : List Byte) :
    Option (List Nat) :=
  (hostResult r delivered).bind utf8Decode

end Sys2Proof.Machine
end

