-- ==== Sys2Proof/Machine/HostRun.lean ====
section
/-! DEFINITION. A run of a host program and its end (40_frame_control R112): the host's book of the frames it has open
and done, kept beside the core, and the observation of a run. No step of the core reads the book (log 23). -/

namespace Sys2Proof.Machine

/-- A run in progress: the core, and the host's book of its frames. A frame is written with the items the core took
for it, so that the frames done can be held against the program's (20_memory R64). -/
structure HostRun where
  core   : State
  /-- the frame whose command is accepted and whose response is not delivered yet, with the items taken so far -/
  opened : Option Frame
  /-- the frames whose response has been delivered, oldest first -/
  done   : List Frame
  deriving DecidableEq, Repr

/-- A run that begins with the core in `s`: no command of the program is accepted yet. -/
def HostRun.start (s : State) : HostRun := ⟨s, none, []⟩

/-- The book after a step of kind `k` that led to `t`. A command opens a frame, an item goes to the open one, and the
response makes it done (40_frame_control R101, R106). A reset abandons it: "The host must treat the frame as not done"
(70 R232). -/
def HostRun.enter (k : Transfer) (t : State) (r : HostRun) : HostRun :=
  match k with
  | .reset => { r with core := t, opened := none }
  | .command w => { r with core := t, opened := some ⟨w, []⟩ }
  | .input x => { r with core := t, opened := r.opened.map fun f => { f with items := f.items ++ [x] } }
  | .output => { r with core := t }
  | .response => { r with core := t, opened := none, done := r.done ++ r.opened.toList }
  | .none _ => { r with core := t }

/-- One step of the core, entered in the book. -/
def HostRun.advance (r : HostRun) : Host.Outcome HostRun Fault Refusal :=
  match step r.core with
  | .next t => .next (r.enter (enabledTransfer r.core) t)
  | .fault why => .fault why
  | .refused why => .refused why

/-- `n` steps entered in the book, stopping at the first that is not taken. -/
def HostRun.advanceBy : Nat → HostRun → Host.Outcome HostRun Fault Refusal
  | 0, r => .next r
  | n + 1, r =>
    match r.advance with
    | .next t => HostRun.advanceBy n t
    | .fault why => .fault why
    | .refused why => .refused why

/-- A host act between two steps. It accepts nothing, so the book stays. -/
def HostRun.act (a : HostAct) (r : HostRun) : HostRun := { r with core := hostAct a r.core }

/-- The run of the program `p` has ended (40_frame_control R112): each of its frames, its last one among them, has had
its response delivered, and no frame is open. So it is not the end while a command of `p` is not yet accepted, however
late the host presents it, nor while a frame that a reset abandoned has not been restarted and answered (70 R232,
log 23). That ST = IDLE then is `Obligations.RunEndsWithItsLastResponse`. -/
abbrev RunEnded (p : List Frame) (r : HostRun) : Prop := r.opened = none ∧ r.done = p

/-- The register values of an observation: the eleven registers of 10_state R21, of OBUF only the entries below OLEN.
Those from OLEN on "are not part of the observation" (93 U4), so they have no place here. -/
structure Registers where
  st     : Mode
  op     : OpCode
  rem    : FrameLen
  acc    : BitVec 33
  gcnt   : BitVec 3
  /-- OBUF[0..OLEN−1]; empty at the end of a run, where OLEN = 0 -/
  obuf   : List Byte
  olen   : BitVec 3
  oidx   : BitVec 3
  status : StatusCode
  info   : Byte
  ocnt   : BitVec 32
  deriving DecidableEq, Repr

/-- The observed register values of a state (40_frame_control R112, 93 U4). -/
def State.registers (s : State) : Registers :=
  ⟨s.st, s.op, s.rem, s.acc, s.gcnt, s.obuf.toList.take s.olen.toNat, s.olen, s.oidx, s.status, s.info, s.ocnt⟩

/-- The observation of a run (40_frame_control R112): the output items delivered, the response words, and the final
register values, without the OBUF entries that 93 U4 leaves out. -/
structure Observation where
  items     : List Byte
  responses : List RspWord
  registers : Registers
  deriving DecidableEq, Repr

/-- The observation of the run that began in `s₀` and stands at `r`: what was delivered since, and the registers. -/
def HostRun.observation (s₀ : State) (r : HostRun) : Observation :=
  ⟨r.core.itemOut.drop s₀.itemOut.length, r.core.rspOut.drop s₀.rspOut.length, r.core.registers⟩

end Sys2Proof.Machine
end

