-- ==== Sys2Proof/Safety.lean ====
section
/-! DEFINITION. What holds in every state of a run: the invariants of 10_state R37 with R21, R26, R27, R29 and R32,
those of STATUS and INFO (R30, R31, 60_exceptions R201), reachability, and the measure of progress. -/

namespace Sys2Proof.Machine

/-- The datapath holds nothing: REM, ACC, GCNT, OLEN, OIDX are 0 (10_state R37 items 1 and 2). -/
abbrev Quiet (s : State) : Prop :=
  s.rem = 0 ∧ s.acc = 0 ∧ s.gcnt = 0 ∧ s.olen = 0 ∧ s.oidx = 0

/-- 10_state R37 item 1. -/
abbrev IdleQuiet (s : State) : Prop := s.st = .idle → Quiet s

/-- 10_state R37 item 2. -/
abbrev RespQuiet (s : State) : Prop := s.st = .resp → Quiet s

/-- 10_state R37 item 3. -/
abbrev DrainShape (s : State) : Prop :=
  s.st = .drain →
    0 < s.rem.toNat ∧ s.acc = 0 ∧ s.gcnt = 0 ∧ s.olen = 0 ∧ s.oidx = 0 ∧ s.status ≠ codeOk

/-- 10_state R37 item 4. -/
abbrev EncShape (s : State) : Prop :=
  s.st = .enc →
    s.op = 0x1 ∧ s.status = codeOk ∧ s.gcnt.toNat ≤ 3 ∧ s.acc.toNat < 2 ^ 32 ∧
      s.acc.toNat % 2 ^ (8 * (4 - s.gcnt.toNat)) = 0 ∧ (0 < s.rem.toNat ∨ 0 < s.olen.toNat)

/-- 10_state R37 item 5. -/
abbrev DecShape (s : State) : Prop :=
  s.st = .dec →
    s.op = 0x2 ∧ s.status = codeOk ∧ s.gcnt.toNat ≤ 4 ∧ s.acc.toNat < 85 ^ s.gcnt.toNat ∧
      (0 < s.rem.toNat ∨ 0 < s.olen.toNat)

/-- 10_state R37 item 6. -/
abbrev DecNoLoneSymbol (s : State) : Prop :=
  s.st = .dec → (s.rem.toNat + s.gcnt.toNat) % 5 ≠ 1

/-- 10_state R37 item 7. -/
abbrev OutputShape (s : State) : Prop :=
  (s.olen = 0 → s.oidx = 0) ∧
    (0 < s.olen.toNat →
      s.oidx.toNat < s.olen.toNat ∧ s.gcnt = 0 ∧ s.acc = 0 ∧ (s.st = .enc ∨ s.st = .dec))

/-- 10_state R37 item 8: of cmd_ready, in_ready, out_valid and rsp_valid at most one is up. -/
abbrev OneFlag (s : State) : Prop :=
  ((cmdReady s).toNat + (inReady s).toNat + (outValid s).toNat + (rspValid s).toNat) ≤ 1

/-- OLEN is 2..5 after an encode conversion and 1..4 after a decode conversion (10_state R29). -/
abbrev OutputSize (s : State) : Prop :=
  (s.st = .enc → s.olen = 0 ∨ (2 ≤ s.olen.toNat ∧ s.olen.toNat ≤ 5)) ∧ (s.st = .dec → s.olen.toNat ≤ 4)

/-- STATUS is one of 0, 1, 2, 3 (10_state R21). -/
abbrev StatusLegal (s : State) : Prop := s.status.toNat ≤ 3

/-- The output items the open frame has delivered, holds pending and can still make are within the largest frame's
335544319, so OCNT cannot overflow (10_state R21, R32; 41_encode R142). -/
abbrev CountRoom (s : State) : Prop :=
  s.ocnt.toNat +
    (match s.st with
    | .enc => (s.olen.toNat - s.oidx.toNat) + encLength (s.rem.toNat + s.gcnt.toNat)
    | .dec => (s.olen.toNat - s.oidx.toNat) + decLength (s.rem.toNat + s.gcnt.toNat)
    | .idle => 0
    | .drain => 0
    | .resp => 0) ≤ 335544319

/-- The invariant of the machine: the eight items of 10_state R37, and the legal ranges of R21, R29 and R32. -/
structure RunInvariant (s : State) : Prop where
  idleQuiet : IdleQuiet s
  respQuiet : RespQuiet s
  drainShape : DrainShape s
  encShape : EncShape s
  decShape : DecShape s
  decNoLoneSymbol : DecNoLoneSymbol s
  outputShape : OutputShape s
  oneFlag : OneFlag s
  outputSize : OutputSize s
  statusLegal : StatusLegal s
  countRoom : CountRoom s

/-- STATUS and INFO tell what happened to the frame (10_state R30, R31; 60_exceptions R201): no detail with OK or
INVALID_LENGTH, a non-alphabet code with INVALID_SYMBOL, OP with ILLEGAL_COMMAND; the two errors found at acceptance
deliver nothing; an open frame has no error. -/
abbrev ErrorDetail (s : State) : Prop :=
  StatusLegal s ∧
    (s.status = codeOk → s.info = 0x00) ∧
    (s.status = codeInvalidLength → s.op = 0x2 ∧ s.info = 0x00 ∧ s.ocnt = 0) ∧
    (s.status = codeInvalidSymbol → s.op = 0x2 ∧ isSymbol s.info = false) ∧
    (s.status = codeIllegalCommand → s.op ≠ 0x1 ∧ s.op ≠ 0x2 ∧ s.info = s.op.zeroExtend 8 ∧ s.ocnt = 0) ∧
    (s.st = .enc → s.op = 0x1 ∧ s.status = codeOk) ∧ (s.st = .dec → s.op = 0x2 ∧ s.status = codeOk)

/-- The states of the runs: from the reset state, by steps of the core and acts of the host in any order
(70 R233, 40_frame_control R100). -/
inductive Reachable : State → Prop where
  | reset : Reachable State.reset
  | step (s t : State) : Reachable s → step s = .next t → Reachable t
  | host (a : HostAct) (s : State) : Reachable s → Reachable (hostAct a s)

/-- A measure that every transfer of an open frame lowers. The quantity of 40_frame_control R111 weighs an item still
to come like one pending, and so rises when a group is converted; here an item still to come weighs 6, more than the
5 outputs its acceptance can make pending (log 12). -/
def progressMeasure (s : State) : Nat :=
  6 * s.rem.toNat + (s.olen.toNat - s.oidx.toNat) + if s.st = .idle then 0 else 1

/-- The quantity of 40_frame_control R111, as it stands there. -/
def quantityR111 (s : State) : Nat :=
  s.rem.toNat + (s.olen.toNat - s.oidx.toNat) + if s.st = .idle then 0 else 1

/-- The host takes whatever the core offers and does not reset it: the eager host of 95_test_vectors section 3. -/
abbrev EagerHost (s : State) : Prop := s.rst = false ∧ s.outReady = true ∧ s.rspReady = true

/-- The invariant of a run with its book: a frame is open exactly outside IDLE, it is the one OP tells, the items it
has taken and those REM still counts are its LEN (10_state R24, R25), and every frame done took exactly its LEN items
(20_memory R64, R65). -/
structure HostRunInvariant (r : HostRun) : Prop where
  core : RunInvariant r.core
  openedOutsideIdle : r.opened = none ↔ r.core.st = .idle
  openedOp : ∀ f, r.opened = some f → r.core.op = f.cmd.extractLsb' 28 4
  openedItems : ∀ f, r.opened = some f → f.items.length + r.core.rem.toNat = f.len.toNat
  doneWhole : ∀ f ∈ r.done, f.wf = true

end Sys2Proof.Machine
end

