-- ==== Sys2Proof/Certificates/Slice0/Obligations.lean ====
section
/-! DEFINITION. The statements for the provers, from the numbered rules of spec/. Where a docstring says "derived",
the rule is one the spec itself marks as its own inference, or the statement rests on a log entry it names. -/

open Sys2Proof Sys2Proof.Machine

-- ==== Encoding ====

/-- Command words written out from 30_encoding R71 and R90 decode to the commands they stand for (sanity). -/
def Obligations.WrittenOutWordsDecode : Prop :=
  decodeWord 0x10000004 = .encode 4 ∧ decodeWord 0x2000000E = .decode 14 ∧
    decodeWord 0x00000000 = .illegal0 0 ∧ decodeWord 0x30000002 = .illegal3 2 ∧
    decodeWord 0xF0000001 = .illegalF 1 ∧ decodeWord 0x1FFFFFFF = .encode 0x0FFFFFFF ∧
    decodeWord 0xA8000001 = .illegalA 0x08000001

/-- Decoder and encoder are inverse on all well-formed commands and on all words: no bit of the encoding is dropped,
and every word has one meaning (30_encoding R71, R73, R78). -/
def Obligations.DecodeAndEncodeAgree : Prop :=
  (∀ i : Instr, i.wf = true → decodeWord (encodeWord i) = i) ∧ ∀ w : CmdWord, encodeWord (decodeWord w) = w

/-- Every 32-bit word is covered by exactly one row of the opcode table, the row of the command it decodes to; the
choice depends on bits [31:28] alone and LEN is bits [27:0] (30_encoding R71, R73, R78). -/
def Obligations.EveryWordSelectsOneTableRow : Prop :=
  ∀ w : CmdWord,
    (opcodeTable.filter fun r => r.covers w).map (·.mnemonic) = [mnemonicOf (decodeWord w)] ∧
      opOf (decodeWord w) = w.extractLsb' 28 4 ∧ lenOf (decodeWord w) = w.extractLsb' 0 28 ∧
      ∀ w' : CmdWord, w'.extractLsb' 28 4 = w.extractLsb' 28 4 → mnemonicOf (decodeWord w') = mnemonicOf (decodeWord w)

/-- 30_encoding R75: the fields of the response word, its reserved bits, and its value. -/
def Obligations.ResponseWordLayout : Prop :=
  ∀ s : State,
    (rspData s).extractLsb' 60 4 = s.status ∧ (rspData s).extractLsb' 56 4 = 0 ∧
      (rspData s).extractLsb' 48 8 = s.info ∧ (rspData s).extractLsb' 32 16 = 0 ∧
      (rspData s).extractLsb' 0 32 = s.ocnt ∧
      (rspData s).toNat = s.status.toNat * 2 ^ 60 + s.info.toNat * 2 ^ 48 + s.ocnt.toNat

-- ==== The ROMs ====

/-- 20_memory R52 and the counts of 30_encoding R81 (derived there): the two ROMs are inverse on the alphabet, no other
code is valid, 85 entries of VAL_ROM have bit 7 set and 171 are 0x00. -/
def Obligations.RomsAreInverse : Prop :=
  (∀ v : Nat, v < 85 → valLut (symLut v) = 0x80 ||| BitVec.ofNat 8 v) ∧
    (∀ c : Byte, isSymbol c = true → symLut (symbolValue c) = c) ∧
    (∀ c : Byte, isSymbol c = true → ∃ v : Nat, v < 85 ∧ symLut v = c) ∧
    valRom.length = 256 ∧ (valRom.filter (·.getLsbD 7)).length = 85 ∧ (valRom.filter (· == 0x00)).length = 171

/-- 20_memory R53: entry c of VAL_ROM has bit 7 set and holds the character's value v in bits [6:0] when c is the code
of alphabet character v, and is 0x00 otherwise. -/
def Obligations.ValueRomHoldsTheAlphabetValues : Prop :=
  ∀ c : Byte,
    (∃ v : Nat, v < 85 ∧ symRom[v]? = some c ∧ (valLut c).getLsbD 7 = true ∧
        ((valLut c).extractLsb' 0 7).toNat = v) ∨
      (c ∉ symRom ∧ (valLut c).getLsbD 7 = false ∧ (valLut c).extractLsb' 0 7 = 0)

/-- 30_encoding R83 (derived there): the codes outside the alphabet are the nine printable characters, space, the
control codes, and every code from 0x7F up. -/
def Obligations.CodesOutsideTheAlphabet : Prop :=
  ∀ c : Byte, isSymbol c = false ↔
    c ∈ ([0x22, 0x25, 0x27, 0x3C, 0x3E, 0x5C, 0x5E, 0x60, 0x7C] : List Byte) ∨ c.toNat ≤ 0x20 ∨ 0x7F ≤ c.toNat

/-- 00_scope R8, 60_exceptions R204: a machine is built from exactly the legal alphabets (85 characters, distinct,
printable) with pad digit 84; the fixed core's parameters are legal and give its two ROMs. That printable means 0x21
to 0x7E is the model's reading of R83 (log 16): derived. -/
def Obligations.OnlyALegalAlphabetBuildsAMachine : Prop :=
  (∀ p : Config.Params, (buildRoms p).isSome = true ↔
      p.alphabet.length = 85 ∧ p.alphabet.Nodup ∧ (∀ c ∈ p.alphabet, 0x21 ≤ c.toNat ∧ c.toNat ≤ 0x7E) ∧
        p.padDigit = 84) ∧
    buildRoms coreParams = some (symRom, valRom)

-- ==== Commands ====

/-- A step in IDLE with a command presented is the meaning of the decoded command, on the state from which the word
has left the channel (40_frame_control R100, R101). -/
def Obligations.StepRunsTheDecodedCommand : Prop :=
  ∀ (s : State) (w : CmdWord) (ws : List CmdWord), s.rst = false → s.st = .idle → s.cmdIn = w :: ws →
    step s = exec (decodeWord w) { s with cmdIn := ws }

/-- A word placed by `withFetchWord` is the next command run, in IDLE with rst low (the model's own way to place a
command: log 8). -/
def Obligations.FetchedWordRunsNext : Prop :=
  ∀ (s : State) (w : CmdWord),
    step (s.withFetchWord 32 w.toNat) = exec (decodeWord w) { s with st := .idle, rst := false }

/-- ENCODE completes from every IDLE state, with every operand: the whole next state (41_encode R140,
40_frame_control R101). -/
def Obligations.EncodeIsAccepted : Prop :=
  ∀ (len : FrameLen) (s : State), s.st = .idle →
    exec (.encode len) s = .next { s with
      op := 0x1, rem := len, acc := 0, gcnt := 0, olen := 0, oidx := 0, ocnt := 0, status := 0, info := 0x00,
      st := if len = 0 then .resp else .enc }

/-- DECODE completes from every IDLE state, with every operand; the length check reads LEN alone
(42_decode R166, 40_frame_control R101). -/
def Obligations.DecodeIsAccepted : Prop :=
  ∀ (len : FrameLen) (s : State), s.st = .idle →
    exec (.decode len) s = .next { s with
      op := 0x2, rem := len, acc := 0, gcnt := 0, olen := 0, oidx := 0, ocnt := 0, info := 0x00,
      status := if len.toNat % 5 = 1 then 1 else 0,
      st := if len.toNat % 5 = 1 then .drain else if len = 0 then .resp else .dec }

/-- Each of the 14 reserved operations completes from every IDLE state, with every operand: ILLEGAL_COMMAND is
recorded with INFO = OP, and the items are to be drained (40_frame_control R110, R101). -/
def Obligations.ReservedOperationsAreRejected : Prop :=
  ∀ (len : FrameLen) (s : State), s.st = .idle →
    let rejected (op : OpCode) : Result := .next { s with
      op := op, rem := len, acc := 0, gcnt := 0, olen := 0, oidx := 0, ocnt := 0, status := 3,
      info := op.zeroExtend 8, st := if len = 0 then .resp else .drain }
    exec (.illegal0 len) s = rejected 0x0 ∧ exec (.illegal3 len) s = rejected 0x3 ∧
      exec (.illegal4 len) s = rejected 0x4 ∧ exec (.illegal5 len) s = rejected 0x5 ∧
      exec (.illegal6 len) s = rejected 0x6 ∧ exec (.illegal7 len) s = rejected 0x7 ∧
      exec (.illegal8 len) s = rejected 0x8 ∧ exec (.illegal9 len) s = rejected 0x9 ∧
      exec (.illegalA len) s = rejected 0xA ∧ exec (.illegalB len) s = rejected 0xB ∧
      exec (.illegalC len) s = rejected 0xC ∧ exec (.illegalD len) s = rejected 0xD ∧
      exec (.illegalE len) s = rejected 0xE ∧ exec (.illegalF len) s = rejected 0xF

/-- 40_frame_control R101, CmdXfer(w), for every word: it is accepted in IDLE and cannot fail; the shared writes, the
acceptance part by OP (41_encode R140, 42_decode R166, R110), and nothing else written. -/
def Obligations.EveryWordIsAcceptedInIdle : Prop :=
  ∀ (s : State) (w : CmdWord) (ws : List CmdWord), s.rst = false → s.st = .idle → s.cmdIn = w :: ws →
    let op : OpCode := w.extractLsb' 28 4
    let len : FrameLen := w.extractLsb' 0 28
    let lengthError : Bool := op == 0x2 && len.toNat % 5 == 1
    let reserved : Bool := op != 0x1 && op != 0x2
    step s = .next { s with
      cmdIn := ws, op := op, rem := len, acc := 0, gcnt := 0, olen := 0, oidx := 0, ocnt := 0,
      status := if reserved then 3 else if lengthError then 1 else 0,
      info := if reserved then op.zeroExtend 8 else 0x00,
      st := if len = 0 then .resp else if reserved || lengthError then .drain else if op = 0x1 then .enc else .dec }

/-- 40_frame_control R102: a command is accepted in IDLE only. In any other state no step of the core takes it from the
channel, and the response's delivery is what leads back to IDLE. That its meaning there is the fault `commandWaits` is
the model's choice (log 4): derived. -/
def Obligations.CommandsWaitOutsideIdle : Prop :=
  (∀ (i : Instr) (s : State), s.st ≠ .idle → exec i s = .fault .commandWaits) ∧
    (∀ s t : State, s.st ≠ .idle → step s = .next t → t.cmdIn = s.cmdIn) ∧
    ∀ s t : State, s.st ≠ .idle → s.rst = false → step s = .next t → t.st = .idle →
      s.st = .resp ∧ t.rspOut = s.rspOut ++ [rspData s]

-- ==== Frame steps ====

/-- 41_encode R131, R133 (with R132, R134, R135): one byte is packed big-endian; at the group's 4th byte or the frame's
last the n + 1 leading digits go to OBUF as symbols and the entries past them are kept; nothing else is written. -/
def Obligations.EncodeInputPacksOrConverts : Prop :=
  ∀ (s : State) (x : Byte) (xs : List Byte),
    s.rst = false → s.st = .enc → s.olen = 0 → s.rem ≠ 0 → s.itemIn = x :: xs → EncShape s →
    let p := s.acc.toNat % 2 ^ 32 + x.toNat * 2 ^ (8 * (3 - s.gcnt.toNat))
    let n := s.gcnt.toNat + 1
    step s = .next (
      if n = 4 ∨ s.rem = 1 then
        { s with
          itemIn := xs, rem := s.rem - 1, acc := 0, gcnt := 0,
          obuf := Vector.ofFn fun i => if i.val ≤ n then symLut ((digits85 p).getD i.val 0) else s.obuf[i],
          olen := BitVec.ofNat 3 (n + 1), oidx := 0 }
      else { s with itemIn := xs, rem := s.rem - 1, acc := BitVec.ofNat 33 p, gcnt := BitVec.ofNat 3 n })

/-- 42_decode R163 (with R162, R164, R165 and the symbol branch of R161): a symbol is accumulated; at the group's 5th
symbol or the frame's last the value is padded with the digit 84 and its bits [31:0] go to OBUF as L − 1 bytes, most
significant first; the entries past them are kept; nothing else is written. The pad loop is stated in closed form:
`v = a · 85^(5−L) + (85^(5−L) − 1)`. -/
def Obligations.DecodeInputAccumulatesOrCompletes : Prop :=
  ∀ (s : State) (x : Byte) (xs : List Byte),
    s.rst = false → s.st = .dec → s.olen = 0 → s.rem ≠ 0 → s.itemIn = x :: xs → DecShape s → DecNoLoneSymbol s →
    isSymbol x = true →
    let a := s.acc.toNat * 85 + symbolValue x
    let L := s.gcnt.toNat + 1
    let v := a * 85 ^ (5 - L) + (85 ^ (5 - L) - 1)
    step s = .next (
      if L = 5 ∨ s.rem = 1 then
        { s with
          itemIn := xs, rem := s.rem - 1, acc := 0, gcnt := 0,
          obuf := Vector.ofFn fun i =>
            if i.val < L - 1 then BitVec.ofNat 8 (v % 2 ^ 32 / 2 ^ (8 * (3 - i.val))) else s.obuf[i],
          olen := BitVec.ofNat 3 (L - 1), oidx := 0 }
      else { s with itemIn := xs, rem := s.rem - 1, acc := BitVec.ofNat 33 a, gcnt := BitVec.ofNat 3 L })

/-- 42_decode R167 and the error entry of 60_exceptions R207: an item that is not an alphabet code fails the frame in
every DEC state; STATUS, INFO, the discarded group, and DRAIN or RESP; no other register is written. -/
def Obligations.InvalidSymbolFailsTheFrame : Prop :=
  ∀ (s : State) (x : Byte) (xs : List Byte),
    s.rst = false → s.st = .dec → s.olen = 0 → s.rem ≠ 0 → s.itemIn = x :: xs → (valLut x).getLsbD 7 = false →
    step s = .next { s with
      itemIn := xs, rem := s.rem - 1, status := 2, info := x, acc := 0, gcnt := 0,
      st := if s.rem = 1 then .resp else .drain }

/-- 40_frame_control R107: in DRAIN an item is discarded whatever it is; the frame's last moves ST to RESP. -/
def Obligations.DrainDiscardsAnItem : Prop :=
  ∀ (s : State) (x : Byte) (xs : List Byte),
    s.rst = false → s.st = .drain → s.rem ≠ 0 → s.itemIn = x :: xs →
    step s = .next { s with itemIn := xs, rem := s.rem - 1, st := if s.rem = 1 then .resp else .drain }

/-- 40_frame_control R104: OBUF[OIDX] is delivered and counted; the group's last item clears OLEN and OIDX, and moves
ST to RESP when the frame has no item left. The bounds on OIDX and OCNT hold in every state of a run (10_state R29,
R32). -/
def Obligations.OutputDeliversAnItem : Prop :=
  ∀ s : State, s.rst = false → s.st = .enc ∨ s.st = .dec → s.outReady = true → s.oidx.toNat < s.olen.toNat →
    ∀ _ : s.oidx.toNat < 5, s.ocnt.toNat + 1 < 2 ^ 32 →
    step s = .next (
      if s.oidx.toNat + 1 = s.olen.toNat then
        { s with
          itemOut := s.itemOut ++ [s.obuf[s.oidx.toNat]], ocnt := s.ocnt + 1, olen := 0, oidx := 0,
          st := if s.rem = 0 then .resp else s.st }
      else { s with itemOut := s.itemOut ++ [s.obuf[s.oidx.toNat]], ocnt := s.ocnt + 1, oidx := s.oidx + 1 })

/-- 40_frame_control R106: the response word is delivered and ST becomes IDLE; every register else keeps its value. -/
def Obligations.ResponseReturnsToIdle : Prop :=
  ∀ s : State, s.rst = false → s.st = .resp → s.rspReady = true →
    ∃ r : RspWord, r.toNat = s.status.toNat * 2 ^ 60 + s.info.toNat * 2 ^ 48 + s.ocnt.toNat ∧
      step s = .next { s with st := .idle, rspOut := s.rspOut ++ [r] }

/-- 70 R230 and 10_state R21: a cycle with rst = 1 takes no transfer, whatever is presented, from any state; every
register takes its reset value, and the flags read cmd_ready = 1 and the others 0. A longer reset gives the same
state. -/
def Obligations.ResetTakesEveryRegister : Prop :=
  ∀ s : State, s.rst = true →
    ∃ t : State, step s = .next t ∧ step t = .next t ∧
      t = { s with
        st := .idle, op := 0x0, rem := 0, acc := 0, gcnt := 0, obuf := #v[0x00, 0x00, 0x00, 0x00, 0x00],
        olen := 0, oidx := 0, status := 0, info := 0x00, ocnt := 0 } ∧
      cmdReady t = true ∧ inReady t = false ∧ outValid t = false ∧ rspValid t = false

/-- 10_state R21: the machine right after reset has the reset value in every register. (That the host's side starts
empty, ready and with rst low is the model's choice: logs 2 and 3, not stated here.) -/
def Obligations.ResetStateHoldsTheResetValues : Prop :=
  State.reset.st = .idle ∧ State.reset.op = 0x0 ∧ State.reset.rem = 0 ∧ State.reset.acc = 0 ∧ State.reset.gcnt = 0 ∧
    State.reset.obuf = #v[0x00, 0x00, 0x00, 0x00, 0x00] ∧ State.reset.olen = 0 ∧ State.reset.oidx = 0 ∧
    State.reset.status = 0 ∧ State.reset.info = 0x00 ∧ State.reset.ocnt = 0

-- ==== Flags and enabling ====

/-- 10_state R33: the four channel flags and the buses are these functions of the registers, and their values after
reset. -/
def Obligations.FlagsFollowTheRegisters : Prop :=
  (∀ s : State,
    (cmdReady s = true ↔ s.st = .idle) ∧
      (inReady s = true ↔
        ((s.st = .enc ∨ s.st = .dec) ∧ s.olen = 0 ∧ 0 < s.rem.toNat) ∨ (s.st = .drain ∧ 0 < s.rem.toNat)) ∧
      (outValid s = true ↔ (s.st = .enc ∨ s.st = .dec) ∧ s.oidx.toNat < s.olen.toNat) ∧
      (∀ h : s.oidx.toNat < 5, outData s = some s.obuf[s.oidx.toNat]) ∧
      (rspValid s = true ↔ s.st = .resp) ∧
      rspData s = s.status ++ 0b0000#4 ++ s.info ++ 0x0000#16 ++ s.ocnt) ∧
    cmdReady State.reset = true ∧ inReady State.reset = false ∧ outValid State.reset = false ∧
    rspValid State.reset = false

/-- 40_frame_control R100: in a state of a run a step is taken exactly when rst is 1 or a channel's valid and ready
are both up; at most one flag is up; otherwise the core waits for the host and nothing else stops it. That waiting is a
named fault is the model's choice (log 4): derived. -/
def Obligations.StepIsTakenExactlyWhenEnabled : Prop :=
  ∀ s : State, RunInvariant s →
    ((∃ t, step s = .next t) ↔
      s.rst = true ∨ (cmdReady s = true ∧ s.cmdIn ≠ []) ∨ (inReady s = true ∧ s.itemIn ≠ []) ∨
        (outValid s = true ∧ s.outReady = true) ∨ (rspValid s = true ∧ s.rspReady = true)) ∧
    step s ≠ .fault .unreachableState ∧ step s ≠ .fault .commandWaits ∧ (∀ r, step s ≠ .refused r) ∧
    (s.st ≠ .idle → inReady s = true ∨ outValid s = true ∨ rspValid s = true)

/-- 40_frame_control R105: while a group's output is pending, in_ready is 0, and a step that leaves the frame in a
transfer takes no input item. -/
def Obligations.PendingOutputBlocksInput : Prop :=
  ∀ s : State, (s.st = .enc ∨ s.st = .dec) → 0 < s.olen.toNat →
    inReady s = false ∧ ∀ t : State, step s = .next t → t.itemIn = s.itemIn

-- ==== Datapath ====

/-- 41_encode R134: digits85(p) is the one list of five digits below 85 whose value is p, and its first digit is at
most 82. -/
def Obligations.DigitsAreTheUniqueRepresentation : Prop :=
  ∀ p : Nat, p < 2 ^ 32 →
    let value (d : List Nat) : Nat :=
      d.getD 0 0 * 85 ^ 4 + d.getD 1 0 * 85 ^ 3 + d.getD 2 0 * 85 ^ 2 + d.getD 3 0 * 85 + d.getD 4 0
    (digits85 p).length = 5 ∧ (∀ x ∈ digits85 p, x < 85) ∧ value (digits85 p) = p ∧ (digits85 p).getD 0 0 ≤ 82 ∧
      ∀ d : List Nat, d.length = 5 → (∀ x ∈ d, x < 85) → value d = p → d = digits85 p

/-- 42_decode R165 (derived there): a group whose padded value is 2^32 or more delivers the bytes of the value less
2^32, and no padded value reaches 2^33. -/
def Obligations.OverflowingGroupsWrap : Prop :=
  ∀ g : List Byte, 2 ≤ g.length → g.length ≤ 5 → (∀ c ∈ g, isSymbol c = true) →
    let w := if groupValue g < 2 ^ 32 then groupValue g else groupValue g - 2 ^ 32
    groupValue g ≤ 4437053124 ∧ w < 2 ^ 32 ∧
      decGroup g = ([w / 2 ^ 24, w / 2 ^ 16 % 256, w / 2 ^ 8 % 256, w % 256].map (BitVec.ofNat 8)).take (g.length - 1)

-- ==== Invariants ====

/-- The invariants hold right after reset (10_state R37, derived there). -/
def Obligations.InvariantsHoldAtReset : Prop := RunInvariant State.reset ∧ ErrorDetail State.reset

/-- Every step keeps the invariants of 10_state R37 (derived there), with the legal ranges of R21, R29 and R32. -/
def Obligations.EveryStepKeepsTheInvariants : Prop :=
  ∀ s t : State, RunInvariant s → step s = .next t → RunInvariant t

/-- Every step keeps what STATUS and INFO say of the frame (10_state R30, R31; 60_exceptions R201). -/
def Obligations.EveryStepKeepsTheErrorDetail : Prop :=
  ∀ s t : State, ErrorDetail s → step s = .next t → ErrorDetail t

/-- In every run from reset, whatever the host does between the steps, the invariants hold and no step is a
specification error (10_state R37, 70 R233; derived). -/
def Obligations.RunsStayInsideTheInvariants : Prop :=
  ∀ s : State, Reachable s →
    RunInvariant s ∧ ErrorDetail s ∧ s.ocnt.toNat ≤ 335544319 ∧ step s ≠ .fault .unreachableState

-- ==== Which step writes what ====

/-- 10_state R25, and of R24 the writes of OP: OP and REM are loaded from the command word when a command is accepted; REM is decremented
by 1 on every accepted input item; neither is written otherwise (reset apart). -/
def Obligations.OpAndRemAreWrittenByCommandsAndItemsOnly : Prop :=
  ∀ s t : State, s.rst = false → step s = .next t →
    (s.st = .idle ∧ ∃ w ws, s.cmdIn = w :: ws ∧ t.op = w.extractLsb' 28 4 ∧ t.rem = w.extractLsb' 0 28 ∧
        t.itemIn = s.itemIn) ∨
      (s.st ≠ .idle ∧ t.op = s.op ∧ (∃ x, s.itemIn = x :: t.itemIn) ∧ t.rem.toNat + 1 = s.rem.toNat) ∨
      (s.st ≠ .idle ∧ t.op = s.op ∧ t.itemIn = s.itemIn ∧ t.rem = s.rem)

/-- 10_state R32, 20_memory R57: OCNT is cleared when a command is accepted and incremented by 1 on each output
transfer, which delivers OBUF[OIDX]; no other step but reset writes it or delivers an item. -/
def Obligations.OcntCountsTheOutputTransfers : Prop :=
  ∀ s t : State, s.rst = false → step s = .next t →
    (s.st = .idle ∧ t.ocnt = 0 ∧ t.itemOut = s.itemOut) ∨
      (outValid s = true ∧ t.ocnt.toNat = s.ocnt.toNat + 1 ∧
        ∃ x, outData s = some x ∧ t.itemOut = s.itemOut ++ [x]) ∨
      (s.st ≠ .idle ∧ outValid s = false ∧ t.ocnt = s.ocnt ∧ t.itemOut = s.itemOut)

/-- 10_state R28: a conversion writes only OBUF[0..OLEN−1]; no other step but reset writes OBUF. -/
def Obligations.OnlyConversionsWriteObuf : Prop :=
  ∀ s t : State, s.rst = false → step s = .next t →
    t.obuf = s.obuf ∨
      ((s.st = .enc ∨ s.st = .dec) ∧ s.olen = 0 ∧ 0 < t.olen.toNat ∧ t.oidx = 0 ∧
        (∃ x, s.itemIn = x :: t.itemIn) ∧
        ∀ (i : Nat) (h : i < 5), t.olen.toNat ≤ i → t.obuf[i] = s.obuf[i])

/-- 10_state R30, 60_exceptions R207 and R208: STATUS is written when a command is accepted, and then only by an
invalid symbol in DEC; STATUS and INFO are written together. -/
def Obligations.StatusIsWrittenByTheFirstErrorOnly : Prop :=
  ∀ s t : State, s.rst = false → step s = .next t → s.st ≠ .idle →
    (t.status = s.status ∧ t.info = s.info) ∨
      (s.st = .dec ∧ t.status = 2 ∧ (t.st = .drain ∨ t.st = .resp) ∧
        ∃ x, s.itemIn = x :: t.itemIn ∧ isSymbol x = false ∧ t.info = x)

/-- 60_exceptions R208, 40_frame_control R108: a failed frame drains or responds; no item changes what is recorded, no
output item is delivered, and OCNT keeps what was delivered before. -/
def Obligations.FailedFrameRecordsNothingMore : Prop :=
  ∀ s t : State, s.rst = false → (s.st = .drain ∨ s.st = .resp) → step s = .next t →
    t.status = s.status ∧ t.info = s.info ∧ t.ocnt = s.ocnt ∧ t.itemOut = s.itemOut ∧ outValid s = false ∧
      (s.st = .drain → (t.st = .drain ∨ t.st = .resp) ∧ t.rspOut = s.rspOut) ∧ (s.st = .resp → t.st = .idle)

-- ==== Progress and the host's timing ====

/-- Every transfer of an open frame lowers the progress measure (40_frame_control R111, with the weight its quantity
lacks: log 12, derived). -/
def Obligations.EveryTransferMakesProgress : Prop :=
  ∀ s t : State, RunInvariant s → s.rst = false → s.st ≠ .idle → step s = .next t → progressMeasure t < progressMeasure s

/-- 40_frame_control R102, 20_memory R64, 70 R250: what the host presents behind the first item of a channel, and a
ready signal raised early, change no step that is taken. (That both channels are queues in State is log 2: derived.) -/
def Obligations.HostTimingChangesNoStep : Prop :=
  ∀ s t : State, step s = .next t →
    (∀ (ws : List CmdWord) (xs : List Byte), step (presentMore ws xs s) = .next (presentMore ws xs t)) ∧
      step { s with outReady := true, rspReady := true } = .next { t with outReady := true, rspReady := true }

-- ==== Whole frames ====

/-- An ENCODE frame of the core delivers exactly Enc(b), in order, and an OK response with their number, in
LEN + OCNT + 2 transfers, and leaves the host's further commands and items untouched (41_encode R140, R141, 70 R251).
The host is the eager one; by `HostTimingChangesNoStep` a slower host sees the same. -/
def Obligations.EncodeFrameDeliversEnc : Prop :=
  ∀ (b : List Byte) (s : State) (ws : List CmdWord) (xs : List Byte),
    b.length < 2 ^ 28 → s.st = .idle → EagerHost s →
    s.cmdIn = BitVec.ofNat 32 (0x10000000 + b.length) :: ws → s.itemIn = b ++ xs →
    ∃ t : State, run (b.length + (enc b).length + 2) s = .next t ∧
      t.st = .idle ∧ t.itemOut = s.itemOut ++ enc b ∧
      t.rspOut = s.rspOut ++ [BitVec.ofNat 64 (enc b).length] ∧
      t.status = 0 ∧ t.info = 0x00 ∧ t.ocnt.toNat = (enc b).length ∧ t.op = 0x1 ∧ Quiet t ∧
      t.cmdIn = ws ∧ t.itemIn = xs ∧ EagerHost t

/-- A DECODE frame of the core delivers exactly Dec(x).out, in order, and a response with its status, detail and
count, and consumes all its items whatever the status (42_decode R168, R170; 40_frame_control R107; 70 R251). -/
def Obligations.DecodeFrameDeliversDec : Prop :=
  ∀ (x : List Byte) (s : State) (ws : List CmdWord) (xs : List Byte),
    x.length < 2 ^ 28 → s.st = .idle → EagerHost s →
    s.cmdIn = BitVec.ofNat 32 (0x20000000 + x.length) :: ws → s.itemIn = x ++ xs →
    ∃ t : State, run (x.length + (dec x).out.length + 2) s = .next t ∧
      t.st = .idle ∧ t.itemOut = s.itemOut ++ (dec x).out ∧
      t.rspOut = s.rspOut ++ [rspWord (dec x).status (dec x).info (BitVec.ofNat 32 (dec x).out.length)] ∧
      t.status = (dec x).status ∧ t.info = (dec x).info ∧ t.ocnt.toNat = (dec x).out.length ∧ t.op = 0x2 ∧ Quiet t ∧
      t.cmdIn = ws ∧ t.itemIn = xs ∧ EagerHost t

/-- 40_frame_control R110, 60_exceptions R203: a frame with a reserved OP is neither encoded, decoded nor ignored: its
items are discarded, nothing is delivered, and the response is `0x3000_0000_0000_0000 | OP·2^48`. -/
def Obligations.ReservedFrameIsDrained : Prop :=
  ∀ (w : CmdWord) (x : List Byte) (s : State) (ws : List CmdWord) (xs : List Byte),
    w.extractLsb' 28 4 ≠ 0x1 → w.extractLsb' 28 4 ≠ 0x2 → x.length = (w.extractLsb' 0 28).toNat →
    s.st = .idle → EagerHost s → s.cmdIn = w :: ws → s.itemIn = x ++ xs →
    ∃ (t : State) (r : RspWord), run (x.length + 2) s = .next t ∧
      r.toNat = 0x3000000000000000 + (w.extractLsb' 28 4).toNat * 2 ^ 48 ∧
      t.st = .idle ∧ t.itemOut = s.itemOut ∧ t.rspOut = s.rspOut ++ [r] ∧ t.status = 3 ∧
      t.info = (w.extractLsb' 28 4).zeroExtend 8 ∧ t.ocnt = 0 ∧
      t.obuf = s.obuf ∧ t.cmdIn = ws ∧ t.itemIn = xs

/-- 20_memory R63 and R64 (derived there): frames are processed one at a time in the order of their commands; frame k
consumes exactly its own LEN items, whatever its status; its outputs come before the next frame's, and so does its
response; and each frame's result is that of its frame function. The order between an output and a response, which are
on two channels, is not stated here. -/
def Obligations.FramesAreProcessedInOrder : Prop :=
  ∀ (fs : List Frame) (s : State) (ws : List CmdWord) (xs : List Byte),
    (∀ f ∈ fs, f.wf = true) → s.st = .idle → EagerHost s →
    s.cmdIn = fs.map (·.cmd) ++ ws → s.itemIn = fs.flatMap (·.items) ++ xs →
    ∃ t : State, run ((fs.map frameTransfers).sum) s = .next t ∧
      t.st = .idle ∧ t.itemOut = s.itemOut ++ fs.flatMap (fun f => (frameResult f).out) ∧
      t.rspOut = s.rspOut ++ fs.map (fun f => (frameResult f).response) ∧
      t.cmdIn = ws ∧ t.itemIn = xs ∧ EagerHost t

-- ==== The run of a host program ====

/-- 40_frame_control R112, 20_memory R63 and R64 (derived there): a program whose frames an eager host presents has
ended after LEN + OCNT + 2 transfers a frame, and not before. ST is IDLE then, and the observation is the frames'
outputs, their responses, and the registers as the last frame leaves them (with OLEN = 0 no OBUF entry is observed,
93 U4). The book of the run is the model's reading (DEDUCED, log 23); that a program without frames has ended at once,
and that the observation counts from `s`, are the model's choice (DESIGN CHOICE, log 23): derived. -/
def Obligations.ProgramRunEndsAfterItsFrames : Prop :=
  ∀ (fs : List Frame) (s : State) (ws : List CmdWord) (xs : List Byte),
    (∀ f ∈ fs, f.wf = true) → s.st = .idle → EagerHost s →
    s.cmdIn = fs.map (·.cmd) ++ ws → s.itemIn = fs.flatMap (·.items) ++ xs →
    let total := (fs.map frameTransfers).sum
    (∃ r : HostRun, (HostRun.start s).advanceBy total = .next r ∧ RunEnded fs r ∧
      (r.observation s).items = fs.flatMap (fun f => (frameResult f).out) ∧
      (r.observation s).responses = fs.map (fun f => (frameResult f).response) ∧
      (r.observation s).registers.st = .idle ∧
      ∀ f, fs.getLast? = some f →
        let g := (r.observation s).registers
        g.op = f.cmd.extractLsb' 28 4 ∧ g.rem = 0 ∧ g.acc = 0 ∧ g.gcnt = 0 ∧ g.olen = 0 ∧ g.oidx = 0 ∧
          g.status = (frameResult f).status ∧ g.info = (frameResult f).info ∧
          g.ocnt.toNat = (frameResult f).out.length) ∧
    ∀ (n : Nat) (r : HostRun), n < total → (HostRun.start s).advanceBy n = .next r → ¬ RunEnded fs r

/-- 40_frame_control R112: no state with ST ≠ IDLE or with a command of the program not yet accepted and answered is
final, and the step that ends a run is the delivery of the response of the program's last command. With rst = 1 a step
can also close a frame presented beyond the program (R112's extra items, 70 R232); that is left to
`ResetAbandonsTheOpenFrame`. The book is the model's (log 23): derived. -/
def Obligations.RunEndsWithItsLastResponse : Prop :=
  ∀ (p : List Frame) (r : HostRun), HostRunInvariant r →
    (r.core.st ≠ .idle ∨ r.done.length < p.length → ¬ RunEnded p r) ∧
      ∀ t : HostRun, r.core.rst = false → ¬ RunEnded p r → r.advance = .next t → RunEnded p t →
        r.core.st = .resp ∧ t.core.st = .idle ∧ t.core.rspOut = r.core.rspOut ++ [rspData r.core] ∧
          ∃ f, r.opened = some f ∧ p = r.done ++ [f]

/-- The invariant of a run with its book holds at its start in reset, and every step and every host act keeps it: a
frame is open exactly outside IDLE, and every frame whose response was delivered has taken exactly its LEN items
(20_memory R64, R65, derived there; the book is the model's, log 23). -/
def Obligations.HostRunInvariantIsKept : Prop :=
  HostRunInvariant (HostRun.start State.reset) ∧
    (∀ r t : HostRun, HostRunInvariant r → r.advance = .next t → HostRunInvariant t) ∧
    ∀ (a : HostAct) (r : HostRun), HostRunInvariant r → HostRunInvariant (r.act a)

/-- 70 R232: a reset abandons the open frame. Nothing more is delivered for it, no response is given, and it is not done,
so a program with a frame still to be done has not ended (that R112 counts it so is log 23: derived). -/
def Obligations.ResetAbandonsTheOpenFrame : Prop :=
  ∀ r : HostRun, r.core.rst = true →
    ∃ t : HostRun, r.advance = .next t ∧ t.core.st = .idle ∧ t.opened = none ∧ t.done = r.done ∧
      t.core.itemOut = r.core.itemOut ∧ t.core.rspOut = r.core.rspOut ∧
      t.core.cmdIn = r.core.cmdIn ∧ t.core.itemIn = r.core.itemIn ∧
      ∀ p : List Frame, r.done ≠ p → ¬ RunEnded p t

-- ==== Laws of the frame functions ====

/-- 41_encode R142: the length relation, and the largest frame. -/
def Obligations.EncodedLength : Prop :=
  (∀ b : List Byte, (enc b).length =
    5 * (b.length / 4) + (if b.length % 4 = 0 then 0 else b.length % 4 + 1)) ∧
    (∀ b : List Byte, b.length = 2 ^ 28 - 1 → (enc b).length = 335544319) ∧ 335544319 < 2 ^ 29

/-- 41_encode R143 (derived there): Enc is compositional over 4-byte boundaries. -/
def Obligations.EncIsCompositional : Prop :=
  ∀ a b : List Byte, a.length % 4 = 0 → enc (a ++ b) = enc a ++ enc b

/-- 41_encode R144 (derived there): every output item of ENCODE is an alphabet code, and the first symbol of every
group has a value of at most 82. -/
def Obligations.EncodedItemsAreAlphabetCodes : Prop :=
  (∀ b : List Byte, ∀ c ∈ enc b, c ∈ symRom ∧ isSymbol c = true) ∧
    ∀ g : List Byte, 1 ≤ g.length → g.length ≤ 4 →
      ∃ c cs, encGroup g = c :: cs ∧ symbolValue c ≤ 82

/-- 41_encode R145 (derived there): a short group's symbols are the first n + 1 of the full group of the same bytes
followed by zero bytes. -/
def Obligations.ShortGroupEncodesAsALeadingPart : Prop :=
  ∀ g : List Byte, 1 ≤ g.length → g.length ≤ 3 →
    encGroup g = (encGroup (g ++ List.replicate (4 - g.length) 0x00)).take (g.length + 1)

/-- 41_encode R146 (derived there): which symbol groups Enc can emit. -/
def Obligations.CanonicalGroupsCharacterised : Prop :=
  (∀ g : List Byte, g.length = 5 → (∀ c ∈ g, isSymbol c = true) →
      (canonicalGroup g ↔ groupValue g ≤ 2 ^ 32 - 1)) ∧
    ∀ g : List Byte, 2 ≤ g.length → g.length ≤ 4 →
      (canonicalGroup g ↔
        ∃ p : Nat, p < 2 ^ 32 ∧ p % 2 ^ (8 * (5 - g.length)) = 0 ∧ g = ((digits85 p).take g.length).map symLut)

/-- 42_decode R168: which error a DECODE frame reports: the length first, then the first non-alphabet item in input
order, else none. (The frame of the core reports what Dec says: `DecodeFrameDeliversDec`.) -/
def Obligations.WhichErrorADecodeReports : Prop :=
  ∀ x : List Byte,
    (x.length % 5 = 1 → (dec x).status = 1 ∧ (dec x).info = 0x00 ∧ (dec x).out = []) ∧
      (x.length % 5 ≠ 1 → ∀ (a : List Byte) (c : Byte) (b : List Byte),
        x = a ++ c :: b → (∀ y ∈ a, isSymbol y = true) → isSymbol c = false →
        (dec x).status = 2 ∧ (dec x).info = c ∧ (dec x).out.length = 4 * (a.length / 5)) ∧
      (x.length % 5 ≠ 1 → (∀ y ∈ x, isSymbol y = true) → (dec x).status = 0 ∧ (dec x).info = 0x00)

/-- 42_decode R171 (derived there): the output length of an OK decode. -/
def Obligations.DecodedLength : Prop :=
  ∀ x : List Byte, x.length % 5 ≠ 1 → (dec x).status = 0 →
    (dec x).out.length = 4 * (x.length / 5) + (if x.length % 5 = 0 then 0 else x.length % 5 - 1)

/-- 42_decode R172 (derived there), the source's round trip: decoding an encoding gives the bytes back. -/
def Obligations.DecodeOfEncodeIsTheInput : Prop :=
  ∀ b : List Byte, dec (enc b) = ⟨0, 0x00, b⟩

/-- 42_decode R173 (derived there): Dec is compositional over 5-symbol boundaries. The rule's clause on the output
fails when the second part has a length error, which takes the whole frame with it (70 R243); that case is left out of
that clause (log 19). -/
def Obligations.DecIsCompositional : Prop :=
  ∀ a b : List Byte, a.length % 5 = 0 → (∀ c ∈ a, isSymbol c = true) → (∀ c ∈ b, isSymbol c = true) →
    (dec (a ++ b)).status = (dec b).status ∧
      (b.length % 5 ≠ 1 → (dec (a ++ b)).out = (dec a).out ++ (dec b).out)

/-- 42_decode R174: every group of 2 to 5 alphabet symbols decodes, to one byte less than its symbols, the groups Enc
never emits among them; so Dec is not injective and Enc after Dec is not the identity. -/
def Obligations.NonCanonicalGroupsDecode : Prop :=
  (∀ g : List Byte, 2 ≤ g.length → g.length ≤ 5 → (∀ c ∈ g, isSymbol c = true) →
      (dec g).status = 0 ∧ (dec g).out.length = g.length - 1) ∧
    (dec [0x30, 0x23]).out = [0x03] ∧ enc [0x03] = [0x30, 0x40] ∧
    (dec [0x23, 0x23, 0x23, 0x23, 0x23]).out = [0x08, 0x78, 0x0E, 0xC4] ∧
    enc [0x08, 0x78, 0x0E, 0xC4] = [0x32, 0x5A, 0x75, 0x26, 0x24] ∧
    (dec [0x3B, 0x6E, 0x53, 0x63, 0x31]).out = [0x00, 0x00, 0x00, 0x00] ∧
    (dec [0x30, 0x30, 0x30, 0x30, 0x30]).out = [0x00, 0x00, 0x00, 0x00]

/-- 42_decode R175 (derived there): the group `0000c` decodes to the value of c, and that value encodes to it. -/
def Obligations.LastSymbolOfAGroupIsStable : Prop :=
  ∀ c : Byte, isSymbol c = true →
    dec [0x30, 0x30, 0x30, 0x30, c] = ⟨0, 0x00, [0x00, 0x00, 0x00, BitVec.ofNat 8 (symbolValue c)]⟩ ∧
      enc [0x00, 0x00, 0x00, BitVec.ofNat 8 (symbolValue c)] = [0x30, 0x30, 0x30, 0x30, c]

-- ==== The host ====

/-- 60_exceptions R209, 30_encoding R76, 93 U7: delivered items are a frame's result exactly with an OK response; the
reserved codes 5 to 15 are read as a broken core. Code 4, which the core never produces either, is read so too by the
model's own inference (DEDUCED, log 24): derived. -/
def Obligations.OnlyAnOkResponseYieldsAResult : Prop :=
  ∀ (status : StatusCode) (info : Byte) (n : BitVec 32) (out : List Byte),
    hostResult (rspWord status info n) out = (if status = 0 then some out else none) ∧
      (verdict (rspWord status info n) = .brokenCore status ↔ 4 ≤ status.toNat) ∧
      (status = 2 → verdict (rspWord status info n) = .invalidSymbol info)

/-- 30_encoding R92 with R90 and R91: the pseudo-commands ENCODE_BYTES and DECODE_TEXT assemble to one well-formed
frame with their own items. R92 gives ENCODE_BYTES only with numbers: that without any it is the frame ENCODE 0, the
first clause at `ns = []`, is the model's choice (DESIGN CHOICE, log 15): derived. -/
def Obligations.PseudoCommandsAssembleToOneFrame : Prop :=
  ∀ (utf8 : List Nat → List Byte) (ns : List Nat), ns.length < 2 ^ 28 →
    ((∀ n ∈ ns, n < 2 ^ 8) →
      assembleProgram utf8 [.encodeBytes ns] =
        some [⟨encodeWord (.encode (BitVec.ofNat 28 ns.length)), ns.map (BitVec.ofNat 8)⟩]) ∧
      ((∀ n ∈ ns, n < 0x80) →
        assembleProgram utf8 [.decodeText ns] =
          some [⟨encodeWord (.decode (BitVec.ofNat 28 ns.length)), ns.map (BitVec.ofNat 8)⟩])
end

