-- ==== Sys2Proof/Laws/State.lean ====
section
/-! SUPPORT. Each named state update, field by field: what it writes and what it leaves, so that no later proof
unfolds a record update. -/

namespace Sys2Proof.Machine

variable (s : State)

/-! popCommand -/

@[simp] theorem popCommand_st : (popCommand s).st = s.st := rfl
@[simp] theorem popCommand_op : (popCommand s).op = s.op := rfl
@[simp] theorem popCommand_rem : (popCommand s).rem = s.rem := rfl
@[simp] theorem popCommand_acc : (popCommand s).acc = s.acc := rfl
@[simp] theorem popCommand_gcnt : (popCommand s).gcnt = s.gcnt := rfl
@[simp] theorem popCommand_obuf : (popCommand s).obuf = s.obuf := rfl
@[simp] theorem popCommand_olen : (popCommand s).olen = s.olen := rfl
@[simp] theorem popCommand_oidx : (popCommand s).oidx = s.oidx := rfl
@[simp] theorem popCommand_status : (popCommand s).status = s.status := rfl
@[simp] theorem popCommand_info : (popCommand s).info = s.info := rfl
@[simp] theorem popCommand_ocnt : (popCommand s).ocnt = s.ocnt := rfl
@[simp] theorem popCommand_rst : (popCommand s).rst = s.rst := rfl
@[simp] theorem popCommand_cmdIn : (popCommand s).cmdIn = s.cmdIn.tail := rfl
@[simp] theorem popCommand_itemIn : (popCommand s).itemIn = s.itemIn := rfl
@[simp] theorem popCommand_outReady : (popCommand s).outReady = s.outReady := rfl
@[simp] theorem popCommand_rspReady : (popCommand s).rspReady = s.rspReady := rfl
@[simp] theorem popCommand_itemOut : (popCommand s).itemOut = s.itemOut := rfl
@[simp] theorem popCommand_rspOut : (popCommand s).rspOut = s.rspOut := rfl

/-! popItem -/

@[simp] theorem popItem_st : (popItem s).st = s.st := rfl
@[simp] theorem popItem_op : (popItem s).op = s.op := rfl
@[simp] theorem popItem_rem : (popItem s).rem = s.rem := rfl
@[simp] theorem popItem_acc : (popItem s).acc = s.acc := rfl
@[simp] theorem popItem_gcnt : (popItem s).gcnt = s.gcnt := rfl
@[simp] theorem popItem_obuf : (popItem s).obuf = s.obuf := rfl
@[simp] theorem popItem_olen : (popItem s).olen = s.olen := rfl
@[simp] theorem popItem_oidx : (popItem s).oidx = s.oidx := rfl
@[simp] theorem popItem_status : (popItem s).status = s.status := rfl
@[simp] theorem popItem_info : (popItem s).info = s.info := rfl
@[simp] theorem popItem_ocnt : (popItem s).ocnt = s.ocnt := rfl
@[simp] theorem popItem_rst : (popItem s).rst = s.rst := rfl
@[simp] theorem popItem_cmdIn : (popItem s).cmdIn = s.cmdIn := rfl
@[simp] theorem popItem_itemIn : (popItem s).itemIn = s.itemIn.tail := rfl
@[simp] theorem popItem_outReady : (popItem s).outReady = s.outReady := rfl
@[simp] theorem popItem_rspReady : (popItem s).rspReady = s.rspReady := rfl
@[simp] theorem popItem_itemOut : (popItem s).itemOut = s.itemOut := rfl
@[simp] theorem popItem_rspOut : (popItem s).rspOut = s.rspOut := rfl

/-! give -/

@[simp] theorem give_st (x : Byte) : (give x s).st = s.st := rfl
@[simp] theorem give_op (x : Byte) : (give x s).op = s.op := rfl
@[simp] theorem give_rem (x : Byte) : (give x s).rem = s.rem := rfl
@[simp] theorem give_acc (x : Byte) : (give x s).acc = s.acc := rfl
@[simp] theorem give_gcnt (x : Byte) : (give x s).gcnt = s.gcnt := rfl
@[simp] theorem give_obuf (x : Byte) : (give x s).obuf = s.obuf := rfl
@[simp] theorem give_olen (x : Byte) : (give x s).olen = s.olen := rfl
@[simp] theorem give_oidx (x : Byte) : (give x s).oidx = s.oidx := rfl
@[simp] theorem give_status (x : Byte) : (give x s).status = s.status := rfl
@[simp] theorem give_info (x : Byte) : (give x s).info = s.info := rfl
@[simp] theorem give_ocnt (x : Byte) : (give x s).ocnt = s.ocnt + 1 := rfl
@[simp] theorem give_rst (x : Byte) : (give x s).rst = s.rst := rfl
@[simp] theorem give_cmdIn (x : Byte) : (give x s).cmdIn = s.cmdIn := rfl
@[simp] theorem give_itemIn (x : Byte) : (give x s).itemIn = s.itemIn := rfl
@[simp] theorem give_outReady (x : Byte) : (give x s).outReady = s.outReady := rfl
@[simp] theorem give_rspReady (x : Byte) : (give x s).rspReady = s.rspReady := rfl
@[simp] theorem give_itemOut (x : Byte) : (give x s).itemOut = s.itemOut ++ [x] := rfl
@[simp] theorem give_rspOut (x : Byte) : (give x s).rspOut = s.rspOut := rfl

/-! countItem -/

@[simp] theorem countItem_st : (countItem s).st = s.st := rfl
@[simp] theorem countItem_op : (countItem s).op = s.op := rfl
@[simp] theorem countItem_rem : (countItem s).rem = s.rem - 1 := rfl
@[simp] theorem countItem_acc : (countItem s).acc = s.acc := rfl
@[simp] theorem countItem_gcnt : (countItem s).gcnt = s.gcnt := rfl
@[simp] theorem countItem_obuf : (countItem s).obuf = s.obuf := rfl
@[simp] theorem countItem_olen : (countItem s).olen = s.olen := rfl
@[simp] theorem countItem_oidx : (countItem s).oidx = s.oidx := rfl
@[simp] theorem countItem_status : (countItem s).status = s.status := rfl
@[simp] theorem countItem_info : (countItem s).info = s.info := rfl
@[simp] theorem countItem_ocnt : (countItem s).ocnt = s.ocnt := rfl
@[simp] theorem countItem_rst : (countItem s).rst = s.rst := rfl
@[simp] theorem countItem_cmdIn : (countItem s).cmdIn = s.cmdIn := rfl
@[simp] theorem countItem_itemIn : (countItem s).itemIn = s.itemIn := rfl
@[simp] theorem countItem_outReady : (countItem s).outReady = s.outReady := rfl
@[simp] theorem countItem_rspReady : (countItem s).rspReady = s.rspReady := rfl
@[simp] theorem countItem_itemOut : (countItem s).itemOut = s.itemOut := rfl
@[simp] theorem countItem_rspOut : (countItem s).rspOut = s.rspOut := rfl

/-! clearGroup -/

@[simp] theorem clearGroup_st : (clearGroup s).st = s.st := rfl
@[simp] theorem clearGroup_op : (clearGroup s).op = s.op := rfl
@[simp] theorem clearGroup_rem : (clearGroup s).rem = s.rem := rfl
@[simp] theorem clearGroup_acc : (clearGroup s).acc = 0 := rfl
@[simp] theorem clearGroup_gcnt : (clearGroup s).gcnt = 0 := rfl
@[simp] theorem clearGroup_obuf : (clearGroup s).obuf = s.obuf := rfl
@[simp] theorem clearGroup_olen : (clearGroup s).olen = s.olen := rfl
@[simp] theorem clearGroup_oidx : (clearGroup s).oidx = s.oidx := rfl
@[simp] theorem clearGroup_status : (clearGroup s).status = s.status := rfl
@[simp] theorem clearGroup_info : (clearGroup s).info = s.info := rfl
@[simp] theorem clearGroup_ocnt : (clearGroup s).ocnt = s.ocnt := rfl
@[simp] theorem clearGroup_rst : (clearGroup s).rst = s.rst := rfl
@[simp] theorem clearGroup_cmdIn : (clearGroup s).cmdIn = s.cmdIn := rfl
@[simp] theorem clearGroup_itemIn : (clearGroup s).itemIn = s.itemIn := rfl
@[simp] theorem clearGroup_outReady : (clearGroup s).outReady = s.outReady := rfl
@[simp] theorem clearGroup_rspReady : (clearGroup s).rspReady = s.rspReady := rfl
@[simp] theorem clearGroup_itemOut : (clearGroup s).itemOut = s.itemOut := rfl
@[simp] theorem clearGroup_rspOut : (clearGroup s).rspOut = s.rspOut := rfl

/-! holdGroup -/

@[simp] theorem holdGroup_st (v n : Nat) : (holdGroup v n s).st = s.st := rfl
@[simp] theorem holdGroup_op (v n : Nat) : (holdGroup v n s).op = s.op := rfl
@[simp] theorem holdGroup_rem (v n : Nat) : (holdGroup v n s).rem = s.rem := rfl
@[simp] theorem holdGroup_acc (v n : Nat) : (holdGroup v n s).acc = BitVec.ofNat 33 v := rfl
@[simp] theorem holdGroup_gcnt (v n : Nat) : (holdGroup v n s).gcnt = BitVec.ofNat 3 n := rfl
@[simp] theorem holdGroup_obuf (v n : Nat) : (holdGroup v n s).obuf = s.obuf := rfl
@[simp] theorem holdGroup_olen (v n : Nat) : (holdGroup v n s).olen = s.olen := rfl
@[simp] theorem holdGroup_oidx (v n : Nat) : (holdGroup v n s).oidx = s.oidx := rfl
@[simp] theorem holdGroup_status (v n : Nat) : (holdGroup v n s).status = s.status := rfl
@[simp] theorem holdGroup_info (v n : Nat) : (holdGroup v n s).info = s.info := rfl
@[simp] theorem holdGroup_ocnt (v n : Nat) : (holdGroup v n s).ocnt = s.ocnt := rfl
@[simp] theorem holdGroup_rst (v n : Nat) : (holdGroup v n s).rst = s.rst := rfl
@[simp] theorem holdGroup_cmdIn (v n : Nat) : (holdGroup v n s).cmdIn = s.cmdIn := rfl
@[simp] theorem holdGroup_itemIn (v n : Nat) : (holdGroup v n s).itemIn = s.itemIn := rfl
@[simp] theorem holdGroup_outReady (v n : Nat) : (holdGroup v n s).outReady = s.outReady := rfl
@[simp] theorem holdGroup_rspReady (v n : Nat) : (holdGroup v n s).rspReady = s.rspReady := rfl
@[simp] theorem holdGroup_itemOut (v n : Nat) : (holdGroup v n s).itemOut = s.itemOut := rfl
@[simp] theorem holdGroup_rspOut (v n : Nat) : (holdGroup v n s).rspOut = s.rspOut := rfl

/-! closeOutput -/

@[simp] theorem closeOutput_st : (closeOutput s).st = if s.rem = 0 then .resp else s.st := rfl
@[simp] theorem closeOutput_op : (closeOutput s).op = s.op := rfl
@[simp] theorem closeOutput_rem : (closeOutput s).rem = s.rem := rfl
@[simp] theorem closeOutput_acc : (closeOutput s).acc = s.acc := rfl
@[simp] theorem closeOutput_gcnt : (closeOutput s).gcnt = s.gcnt := rfl
@[simp] theorem closeOutput_obuf : (closeOutput s).obuf = s.obuf := rfl
@[simp] theorem closeOutput_olen : (closeOutput s).olen = 0 := rfl
@[simp] theorem closeOutput_oidx : (closeOutput s).oidx = 0 := rfl
@[simp] theorem closeOutput_status : (closeOutput s).status = s.status := rfl
@[simp] theorem closeOutput_info : (closeOutput s).info = s.info := rfl
@[simp] theorem closeOutput_ocnt : (closeOutput s).ocnt = s.ocnt := rfl
@[simp] theorem closeOutput_rst : (closeOutput s).rst = s.rst := rfl
@[simp] theorem closeOutput_cmdIn : (closeOutput s).cmdIn = s.cmdIn := rfl
@[simp] theorem closeOutput_itemIn : (closeOutput s).itemIn = s.itemIn := rfl
@[simp] theorem closeOutput_outReady : (closeOutput s).outReady = s.outReady := rfl
@[simp] theorem closeOutput_rspReady : (closeOutput s).rspReady = s.rspReady := rfl
@[simp] theorem closeOutput_itemOut : (closeOutput s).itemOut = s.itemOut := rfl
@[simp] theorem closeOutput_rspOut : (closeOutput s).rspOut = s.rspOut := rfl

/-! nextOutput -/

@[simp] theorem nextOutput_st : (nextOutput s).st = s.st := rfl
@[simp] theorem nextOutput_op : (nextOutput s).op = s.op := rfl
@[simp] theorem nextOutput_rem : (nextOutput s).rem = s.rem := rfl
@[simp] theorem nextOutput_acc : (nextOutput s).acc = s.acc := rfl
@[simp] theorem nextOutput_gcnt : (nextOutput s).gcnt = s.gcnt := rfl
@[simp] theorem nextOutput_obuf : (nextOutput s).obuf = s.obuf := rfl
@[simp] theorem nextOutput_olen : (nextOutput s).olen = s.olen := rfl
@[simp] theorem nextOutput_oidx : (nextOutput s).oidx = s.oidx + 1 := rfl
@[simp] theorem nextOutput_status : (nextOutput s).status = s.status := rfl
@[simp] theorem nextOutput_info : (nextOutput s).info = s.info := rfl
@[simp] theorem nextOutput_ocnt : (nextOutput s).ocnt = s.ocnt := rfl
@[simp] theorem nextOutput_rst : (nextOutput s).rst = s.rst := rfl
@[simp] theorem nextOutput_cmdIn : (nextOutput s).cmdIn = s.cmdIn := rfl
@[simp] theorem nextOutput_itemIn : (nextOutput s).itemIn = s.itemIn := rfl
@[simp] theorem nextOutput_outReady : (nextOutput s).outReady = s.outReady := rfl
@[simp] theorem nextOutput_rspReady : (nextOutput s).rspReady = s.rspReady := rfl
@[simp] theorem nextOutput_itemOut : (nextOutput s).itemOut = s.itemOut := rfl
@[simp] theorem nextOutput_rspOut : (nextOutput s).rspOut = s.rspOut := rfl

/-! discardItem -/

@[simp] theorem discardItem_st : (discardItem s).st = if s.rem = 1 then .resp else s.st := rfl
@[simp] theorem discardItem_op : (discardItem s).op = s.op := rfl
@[simp] theorem discardItem_rem : (discardItem s).rem = s.rem - 1 := rfl
@[simp] theorem discardItem_acc : (discardItem s).acc = s.acc := rfl
@[simp] theorem discardItem_gcnt : (discardItem s).gcnt = s.gcnt := rfl
@[simp] theorem discardItem_obuf : (discardItem s).obuf = s.obuf := rfl
@[simp] theorem discardItem_olen : (discardItem s).olen = s.olen := rfl
@[simp] theorem discardItem_oidx : (discardItem s).oidx = s.oidx := rfl
@[simp] theorem discardItem_status : (discardItem s).status = s.status := rfl
@[simp] theorem discardItem_info : (discardItem s).info = s.info := rfl
@[simp] theorem discardItem_ocnt : (discardItem s).ocnt = s.ocnt := rfl
@[simp] theorem discardItem_rst : (discardItem s).rst = s.rst := rfl
@[simp] theorem discardItem_cmdIn : (discardItem s).cmdIn = s.cmdIn := rfl
@[simp] theorem discardItem_itemIn : (discardItem s).itemIn = s.itemIn := rfl
@[simp] theorem discardItem_outReady : (discardItem s).outReady = s.outReady := rfl
@[simp] theorem discardItem_rspReady : (discardItem s).rspReady = s.rspReady := rfl
@[simp] theorem discardItem_itemOut : (discardItem s).itemOut = s.itemOut := rfl
@[simp] theorem discardItem_rspOut : (discardItem s).rspOut = s.rspOut := rfl

/-! openFrame -/

@[simp] theorem openFrame_st (op : OpCode) (len : FrameLen) : (openFrame op len s).st = s.st := rfl
@[simp] theorem openFrame_op (op : OpCode) (len : FrameLen) : (openFrame op len s).op = op := rfl
@[simp] theorem openFrame_rem (op : OpCode) (len : FrameLen) : (openFrame op len s).rem = len := rfl
@[simp] theorem openFrame_acc (op : OpCode) (len : FrameLen) : (openFrame op len s).acc = 0 := rfl
@[simp] theorem openFrame_gcnt (op : OpCode) (len : FrameLen) : (openFrame op len s).gcnt = 0 := rfl
@[simp] theorem openFrame_obuf (op : OpCode) (len : FrameLen) : (openFrame op len s).obuf = s.obuf := rfl
@[simp] theorem openFrame_olen (op : OpCode) (len : FrameLen) : (openFrame op len s).olen = 0 := rfl
@[simp] theorem openFrame_oidx (op : OpCode) (len : FrameLen) : (openFrame op len s).oidx = 0 := rfl
@[simp] theorem openFrame_status (op : OpCode) (len : FrameLen) : (openFrame op len s).status = s.status := rfl
@[simp] theorem openFrame_info (op : OpCode) (len : FrameLen) : (openFrame op len s).info = s.info := rfl
@[simp] theorem openFrame_ocnt (op : OpCode) (len : FrameLen) : (openFrame op len s).ocnt = 0 := rfl
@[simp] theorem openFrame_rst (op : OpCode) (len : FrameLen) : (openFrame op len s).rst = s.rst := rfl
@[simp] theorem openFrame_cmdIn (op : OpCode) (len : FrameLen) : (openFrame op len s).cmdIn = s.cmdIn := rfl
@[simp] theorem openFrame_itemIn (op : OpCode) (len : FrameLen) : (openFrame op len s).itemIn = s.itemIn := rfl
@[simp] theorem openFrame_outReady (op : OpCode) (len : FrameLen) : (openFrame op len s).outReady = s.outReady := rfl
@[simp] theorem openFrame_rspReady (op : OpCode) (len : FrameLen) : (openFrame op len s).rspReady = s.rspReady := rfl
@[simp] theorem openFrame_itemOut (op : OpCode) (len : FrameLen) : (openFrame op len s).itemOut = s.itemOut := rfl
@[simp] theorem openFrame_rspOut (op : OpCode) (len : FrameLen) : (openFrame op len s).rspOut = s.rspOut := rfl

/-! startFrame -/

@[simp] theorem startFrame_st (m : Mode) (len : FrameLen) : (startFrame m len s).st = if len = 0 then .resp else m := rfl
@[simp] theorem startFrame_op (m : Mode) (len : FrameLen) : (startFrame m len s).op = s.op := rfl
@[simp] theorem startFrame_rem (m : Mode) (len : FrameLen) : (startFrame m len s).rem = s.rem := rfl
@[simp] theorem startFrame_acc (m : Mode) (len : FrameLen) : (startFrame m len s).acc = s.acc := rfl
@[simp] theorem startFrame_gcnt (m : Mode) (len : FrameLen) : (startFrame m len s).gcnt = s.gcnt := rfl
@[simp] theorem startFrame_obuf (m : Mode) (len : FrameLen) : (startFrame m len s).obuf = s.obuf := rfl
@[simp] theorem startFrame_olen (m : Mode) (len : FrameLen) : (startFrame m len s).olen = s.olen := rfl
@[simp] theorem startFrame_oidx (m : Mode) (len : FrameLen) : (startFrame m len s).oidx = s.oidx := rfl
@[simp] theorem startFrame_status (m : Mode) (len : FrameLen) : (startFrame m len s).status = codeOk := rfl
@[simp] theorem startFrame_info (m : Mode) (len : FrameLen) : (startFrame m len s).info = 0 := rfl
@[simp] theorem startFrame_ocnt (m : Mode) (len : FrameLen) : (startFrame m len s).ocnt = s.ocnt := rfl
@[simp] theorem startFrame_rst (m : Mode) (len : FrameLen) : (startFrame m len s).rst = s.rst := rfl
@[simp] theorem startFrame_cmdIn (m : Mode) (len : FrameLen) : (startFrame m len s).cmdIn = s.cmdIn := rfl
@[simp] theorem startFrame_itemIn (m : Mode) (len : FrameLen) : (startFrame m len s).itemIn = s.itemIn := rfl
@[simp] theorem startFrame_outReady (m : Mode) (len : FrameLen) : (startFrame m len s).outReady = s.outReady := rfl
@[simp] theorem startFrame_rspReady (m : Mode) (len : FrameLen) : (startFrame m len s).rspReady = s.rspReady := rfl
@[simp] theorem startFrame_itemOut (m : Mode) (len : FrameLen) : (startFrame m len s).itemOut = s.itemOut := rfl
@[simp] theorem startFrame_rspOut (m : Mode) (len : FrameLen) : (startFrame m len s).rspOut = s.rspOut := rfl

/-! errorEntry -/

@[simp] theorem errorEntry_st (c : StatusCode) (i : Byte) (left : FrameLen) : (errorEntry c i left s).st = if left = 0 then .resp else .drain := rfl
@[simp] theorem errorEntry_op (c : StatusCode) (i : Byte) (left : FrameLen) : (errorEntry c i left s).op = s.op := rfl
@[simp] theorem errorEntry_rem (c : StatusCode) (i : Byte) (left : FrameLen) : (errorEntry c i left s).rem = s.rem := rfl
@[simp] theorem errorEntry_acc (c : StatusCode) (i : Byte) (left : FrameLen) : (errorEntry c i left s).acc = 0 := rfl
@[simp] theorem errorEntry_gcnt (c : StatusCode) (i : Byte) (left : FrameLen) : (errorEntry c i left s).gcnt = 0 := rfl
@[simp] theorem errorEntry_obuf (c : StatusCode) (i : Byte) (left : FrameLen) : (errorEntry c i left s).obuf = s.obuf := rfl
@[simp] theorem errorEntry_olen (c : StatusCode) (i : Byte) (left : FrameLen) : (errorEntry c i left s).olen = s.olen := rfl
@[simp] theorem errorEntry_oidx (c : StatusCode) (i : Byte) (left : FrameLen) : (errorEntry c i left s).oidx = s.oidx := rfl
@[simp] theorem errorEntry_status (c : StatusCode) (i : Byte) (left : FrameLen) : (errorEntry c i left s).status = c := rfl
@[simp] theorem errorEntry_info (c : StatusCode) (i : Byte) (left : FrameLen) : (errorEntry c i left s).info = i := rfl
@[simp] theorem errorEntry_ocnt (c : StatusCode) (i : Byte) (left : FrameLen) : (errorEntry c i left s).ocnt = s.ocnt := rfl
@[simp] theorem errorEntry_rst (c : StatusCode) (i : Byte) (left : FrameLen) : (errorEntry c i left s).rst = s.rst := rfl
@[simp] theorem errorEntry_cmdIn (c : StatusCode) (i : Byte) (left : FrameLen) : (errorEntry c i left s).cmdIn = s.cmdIn := rfl
@[simp] theorem errorEntry_itemIn (c : StatusCode) (i : Byte) (left : FrameLen) : (errorEntry c i left s).itemIn = s.itemIn := rfl
@[simp] theorem errorEntry_outReady (c : StatusCode) (i : Byte) (left : FrameLen) : (errorEntry c i left s).outReady = s.outReady := rfl
@[simp] theorem errorEntry_rspReady (c : StatusCode) (i : Byte) (left : FrameLen) : (errorEntry c i left s).rspReady = s.rspReady := rfl
@[simp] theorem errorEntry_itemOut (c : StatusCode) (i : Byte) (left : FrameLen) : (errorEntry c i left s).itemOut = s.itemOut := rfl
@[simp] theorem errorEntry_rspOut (c : StatusCode) (i : Byte) (left : FrameLen) : (errorEntry c i left s).rspOut = s.rspOut := rfl

/-! deliverResponse -/

@[simp] theorem deliverResponse_st : (deliverResponse s).st = .idle := rfl
@[simp] theorem deliverResponse_op : (deliverResponse s).op = s.op := rfl
@[simp] theorem deliverResponse_rem : (deliverResponse s).rem = s.rem := rfl
@[simp] theorem deliverResponse_acc : (deliverResponse s).acc = s.acc := rfl
@[simp] theorem deliverResponse_gcnt : (deliverResponse s).gcnt = s.gcnt := rfl
@[simp] theorem deliverResponse_obuf : (deliverResponse s).obuf = s.obuf := rfl
@[simp] theorem deliverResponse_olen : (deliverResponse s).olen = s.olen := rfl
@[simp] theorem deliverResponse_oidx : (deliverResponse s).oidx = s.oidx := rfl
@[simp] theorem deliverResponse_status : (deliverResponse s).status = s.status := rfl
@[simp] theorem deliverResponse_info : (deliverResponse s).info = s.info := rfl
@[simp] theorem deliverResponse_ocnt : (deliverResponse s).ocnt = s.ocnt := rfl
@[simp] theorem deliverResponse_rst : (deliverResponse s).rst = s.rst := rfl
@[simp] theorem deliverResponse_cmdIn : (deliverResponse s).cmdIn = s.cmdIn := rfl
@[simp] theorem deliverResponse_itemIn : (deliverResponse s).itemIn = s.itemIn := rfl
@[simp] theorem deliverResponse_outReady : (deliverResponse s).outReady = s.outReady := rfl
@[simp] theorem deliverResponse_rspReady : (deliverResponse s).rspReady = s.rspReady := rfl
@[simp] theorem deliverResponse_itemOut : (deliverResponse s).itemOut = s.itemOut := rfl
@[simp] theorem deliverResponse_rspOut : (deliverResponse s).rspOut = s.rspOut ++ [rspData s] := rfl

/-! loadOutput -/

@[simp] theorem loadOutput_st (is : List Byte) : (loadOutput is s).st = s.st := rfl
@[simp] theorem loadOutput_op (is : List Byte) : (loadOutput is s).op = s.op := rfl
@[simp] theorem loadOutput_rem (is : List Byte) : (loadOutput is s).rem = s.rem := rfl
@[simp] theorem loadOutput_acc (is : List Byte) : (loadOutput is s).acc = s.acc := rfl
@[simp] theorem loadOutput_gcnt (is : List Byte) : (loadOutput is s).gcnt = s.gcnt := rfl
@[simp] theorem loadOutput_obuf (is : List Byte) : (loadOutput is s).obuf = overwriteObuf s.obuf is := rfl
@[simp] theorem loadOutput_olen (is : List Byte) : (loadOutput is s).olen = BitVec.ofNat 3 is.length := rfl
@[simp] theorem loadOutput_oidx (is : List Byte) : (loadOutput is s).oidx = 0 := rfl
@[simp] theorem loadOutput_status (is : List Byte) : (loadOutput is s).status = s.status := rfl
@[simp] theorem loadOutput_info (is : List Byte) : (loadOutput is s).info = s.info := rfl
@[simp] theorem loadOutput_ocnt (is : List Byte) : (loadOutput is s).ocnt = s.ocnt := rfl
@[simp] theorem loadOutput_rst (is : List Byte) : (loadOutput is s).rst = s.rst := rfl
@[simp] theorem loadOutput_cmdIn (is : List Byte) : (loadOutput is s).cmdIn = s.cmdIn := rfl
@[simp] theorem loadOutput_itemIn (is : List Byte) : (loadOutput is s).itemIn = s.itemIn := rfl
@[simp] theorem loadOutput_outReady (is : List Byte) : (loadOutput is s).outReady = s.outReady := rfl
@[simp] theorem loadOutput_rspReady (is : List Byte) : (loadOutput is s).rspReady = s.rspReady := rfl
@[simp] theorem loadOutput_itemOut (is : List Byte) : (loadOutput is s).itemOut = s.itemOut := rfl
@[simp] theorem loadOutput_rspOut (is : List Byte) : (loadOutput is s).rspOut = s.rspOut := rfl

/-! resetRegs -/

@[simp] theorem resetRegs_st : (resetRegs s).st = .idle := rfl
@[simp] theorem resetRegs_op : (resetRegs s).op = 0 := rfl
@[simp] theorem resetRegs_rem : (resetRegs s).rem = 0 := rfl
@[simp] theorem resetRegs_acc : (resetRegs s).acc = 0 := rfl
@[simp] theorem resetRegs_gcnt : (resetRegs s).gcnt = 0 := rfl
@[simp] theorem resetRegs_obuf : (resetRegs s).obuf = Vector.replicate 5 0 := rfl
@[simp] theorem resetRegs_olen : (resetRegs s).olen = 0 := rfl
@[simp] theorem resetRegs_oidx : (resetRegs s).oidx = 0 := rfl
@[simp] theorem resetRegs_status : (resetRegs s).status = 0 := rfl
@[simp] theorem resetRegs_info : (resetRegs s).info = 0 := rfl
@[simp] theorem resetRegs_ocnt : (resetRegs s).ocnt = 0 := rfl
@[simp] theorem resetRegs_rst : (resetRegs s).rst = s.rst := rfl
@[simp] theorem resetRegs_cmdIn : (resetRegs s).cmdIn = s.cmdIn := rfl
@[simp] theorem resetRegs_itemIn : (resetRegs s).itemIn = s.itemIn := rfl
@[simp] theorem resetRegs_outReady : (resetRegs s).outReady = s.outReady := rfl
@[simp] theorem resetRegs_rspReady : (resetRegs s).rspReady = s.rspReady := rfl
@[simp] theorem resetRegs_itemOut : (resetRegs s).itemOut = s.itemOut := rfl
@[simp] theorem resetRegs_rspOut : (resetRegs s).rspOut = s.rspOut := rfl

/-! presentMore -/

@[simp] theorem presentMore_st (ws : List CmdWord) (xs : List Byte) : (presentMore ws xs s).st = s.st := rfl
@[simp] theorem presentMore_op (ws : List CmdWord) (xs : List Byte) : (presentMore ws xs s).op = s.op := rfl
@[simp] theorem presentMore_rem (ws : List CmdWord) (xs : List Byte) : (presentMore ws xs s).rem = s.rem := rfl
@[simp] theorem presentMore_acc (ws : List CmdWord) (xs : List Byte) : (presentMore ws xs s).acc = s.acc := rfl
@[simp] theorem presentMore_gcnt (ws : List CmdWord) (xs : List Byte) : (presentMore ws xs s).gcnt = s.gcnt := rfl
@[simp] theorem presentMore_obuf (ws : List CmdWord) (xs : List Byte) : (presentMore ws xs s).obuf = s.obuf := rfl
@[simp] theorem presentMore_olen (ws : List CmdWord) (xs : List Byte) : (presentMore ws xs s).olen = s.olen := rfl
@[simp] theorem presentMore_oidx (ws : List CmdWord) (xs : List Byte) : (presentMore ws xs s).oidx = s.oidx := rfl
@[simp] theorem presentMore_status (ws : List CmdWord) (xs : List Byte) : (presentMore ws xs s).status = s.status := rfl
@[simp] theorem presentMore_info (ws : List CmdWord) (xs : List Byte) : (presentMore ws xs s).info = s.info := rfl
@[simp] theorem presentMore_ocnt (ws : List CmdWord) (xs : List Byte) : (presentMore ws xs s).ocnt = s.ocnt := rfl
@[simp] theorem presentMore_rst (ws : List CmdWord) (xs : List Byte) : (presentMore ws xs s).rst = s.rst := rfl
@[simp] theorem presentMore_cmdIn (ws : List CmdWord) (xs : List Byte) : (presentMore ws xs s).cmdIn = s.cmdIn ++ ws := rfl
@[simp] theorem presentMore_itemIn (ws : List CmdWord) (xs : List Byte) : (presentMore ws xs s).itemIn = s.itemIn ++ xs := rfl
@[simp] theorem presentMore_outReady (ws : List CmdWord) (xs : List Byte) : (presentMore ws xs s).outReady = s.outReady := rfl
@[simp] theorem presentMore_rspReady (ws : List CmdWord) (xs : List Byte) : (presentMore ws xs s).rspReady = s.rspReady := rfl
@[simp] theorem presentMore_itemOut (ws : List CmdWord) (xs : List Byte) : (presentMore ws xs s).itemOut = s.itemOut := rfl
@[simp] theorem presentMore_rspOut (ws : List CmdWord) (xs : List Byte) : (presentMore ws xs s).rspOut = s.rspOut := rfl

end Sys2Proof.Machine
end

