-- ==== Sys2Proof/Laws/Datapath.lean ====
section
/-! SUPPORT. The datapath functions: sizes, bounds and the entries of OBUF. -/

namespace Sys2Proof.Machine

theorem digitRounds_length (r v : Nat) (ds : List Nat) : (digitRounds r v ds).length = r + ds.length := by
  induction r generalizing v ds with
  | zero => simp [digitRounds]
  | succ r ih => simp only [digitRounds, ih, List.length_cons]; omega

@[simp] theorem digits85_length (p : Nat) : (digits85 p).length = 5 := digitRounds_length 5 p []

/-- The five digits written out (41_encode R134). -/
theorem digits85_eq (p : Nat) :
    digits85 p = [p / 85 / 85 / 85 / 85 % 85, p / 85 / 85 / 85 % 85, p / 85 / 85 % 85, p / 85 % 85, p % 85] := rfl

theorem digits85_lt (p d : Nat) (h : d ∈ digits85 p) : d < 85 := by
  simp only [digits85_eq, List.mem_cons, List.not_mem_nil, or_false] at h
  obtain rfl | rfl | rfl | rfl | rfl := h <;> exact Nat.mod_lt _ (by decide)

@[simp] theorem groupSymbols_length (p n : Nat) : (groupSymbols p n).length = min (n + 1) 5 := by
  simp [groupSymbols]

@[simp] theorem unpackBytes_length (v : Nat) : (unpackBytes v).length = 4 := rfl

@[simp] theorem groupBytes_length (a L : Nat) : (groupBytes a L).length = min (L - 1) 4 := by
  simp [groupBytes]

/-- The pad loop in closed form: k digits 84 behind v (42_decode R163). -/
theorem padRounds_eq (k v : Nat) : padRounds k v = v * 85 ^ k + (85 ^ k - 1) := by
  induction k generalizing v with
  | zero => simp [padRounds]
  | succ k ih =>
    have hk : 0 < 85 ^ k := Nat.pow_pos (by decide)
    have e : 85 ^ (k + 1) = 85 * 85 ^ k := by rw [Nat.pow_succ, Nat.mul_comm]
    have d : (v * 85 + 84) * 85 ^ k = v * (85 * 85 ^ k) + 84 * 85 ^ k := by
      rw [Nat.add_mul, Nat.mul_assoc]
    simp only [padRounds, Config.radix, Config.padDigit, ih, e, d]
    omega

/-- The pack value fits ACC's 33 bits in every state (41_encode R131: `ACC <- zext_33(p)`). -/
theorem packByte_lt (acc gcnt : Nat) (x : Byte) : packByte acc gcnt x < 2 ^ 33 := by
  have hx : x.toNat * 2 ^ (8 * (3 - gcnt)) ≤ 255 * 2 ^ 24 :=
    Nat.mul_le_mul (by have := x.isLt; omega) (Nat.pow_le_pow_right (by decide) (by omega))
  have ha : acc % 2 ^ 32 < 2 ^ 32 := Nat.mod_lt _ (by decide)
  simp only [packByte]
  omega

/-- An entry of OBUF after a conversion: the new item where there is one, the old entry elsewhere (10_state R28). -/
theorem overwriteObuf_getElem (b : Vector Byte 5) (is : List Byte) (i : Nat) (h : i < 5) :
    (overwriteObuf b is)[i] = is.getD i b[i] := by
  simp [overwriteObuf]

/-- An entry past the converted items is kept (41_encode R133, 42_decode R164). -/
theorem overwriteObuf_kept (b : Vector Byte 5) (is : List Byte) (i : Nat) (h : i < 5) (hi : is.length ≤ i) :
    (overwriteObuf b is)[i] = b[i] := by
  rw [overwriteObuf_getElem _ _ _ h, List.getD_eq_default _ _ hi]

end Sys2Proof.Machine
end

