-- ==== Sys2Proof/Laws/Rom.lean ====
section
/-! SUPPORT. The ROMs at the addresses the rules read. -/

namespace Sys2Proof.Machine

@[simp] theorem symRom_length : symRom.length = 85 := rfl

@[simp] theorem valRom_length : valRom.length = 256 := by decide +kernel

/-- SymLut in its range reads the table, never the free value (20_memory R51). -/
theorem symLut_of_lt (v : Nat) (h : v < 85) : symLut v = symRom[v]'(by simpa using h) := by
  have : symRom[v]? = some (symRom[v]'(by simpa using h)) := List.getElem?_eq_getElem _
  simp [symLut, this]

/-- A symbol's value is one of the 85 digits (20_memory R53). -/
theorem symbolValue_lt (c : Byte) : symbolValue c < 85 := by
  revert c; decide +kernel

end Sys2Proof.Machine
end

