-- ==== Sys2Proof/Laws/Ops.lean ====
section
/-! SUPPORT. What each shared operation can do, said once: the inversion lemma of every operation, of the input steps
and of `step`. -/

namespace Sys2Proof.Machine

variable {s t : State}

/-- A command is accepted in IDLE and nowhere else (40_frame_control R101, R102). -/
theorem acceptCommand_next {op : OpCode} {len : FrameLen} {k : State → State} :
    acceptCommand op len k s = .next t ↔ s.st = .idle ∧ t = k (openFrame op len s) := by
  unfold acceptCommand
  split <;> simp_all [eq_comm]

theorem rejectCommand_next {op : OpCode} {len : FrameLen} :
    rejectCommand op len s = .next t ↔
      s.st = .idle ∧ t = errorEntry codeIllegalCommand (op.zeroExtend 8) len (openFrame op len s) :=
  acceptCommand_next

/-- A conversion answers a next state only within R133's bounds, and then loads the group's symbols. -/
theorem convertGroup_next {p n : Nat} :
    convertGroup p n s = .next t ↔
      (p < 2 ^ 32 ∧ 1 ≤ n ∧ n ≤ 4) ∧ t = loadOutput (groupSymbols p n) s := by
  unfold convertGroup
  split <;> simp_all [eq_comm]

/-- A completion answers a next state only within R163's bounds, and then loads the group's bytes. -/
theorem completeGroup_next {a L : Nat} :
    completeGroup a L s = .next t ↔
      (a < 85 ^ L ∧ 2 ≤ L ∧ L ≤ 5) ∧ t = loadOutput (groupBytes a L) s := by
  unfold completeGroup
  split <;> simp_all [eq_comm]

/-- The encoder's input step: the group completes, or the byte is packed (41_encode R131). -/
theorem encodeItem_cases {x : Byte} (h : encodeItem x s = .next t) :
    s.gcnt.toNat ≤ 3 ∧
      (((s.gcnt.toNat + 1 = 4 ∨ s.rem = 1) ∧ packByte s.acc.toNat s.gcnt.toNat x < 2 ^ 32 ∧
          t = loadOutput (groupSymbols (packByte s.acc.toNat s.gcnt.toNat x) (s.gcnt.toNat + 1))
            (clearGroup (countItem s))) ∨
        (¬(s.gcnt.toNat + 1 = 4 ∨ s.rem = 1) ∧
          t = holdGroup (packByte s.acc.toNat s.gcnt.toNat x) (s.gcnt.toNat + 1) (countItem s))) := by
  simp only [encodeItem, Config.encGroupLen] at h
  split at h
  · rename_i hg
    refine ⟨hg, ?_⟩
    split at h
    · rename_i hc
      obtain ⟨⟨hp, _, _⟩, rfl⟩ := convertGroup_next.1 h
      exact .inl ⟨hc, hp, rfl⟩
    · rename_i hc
      exact .inr ⟨hc, by cases h; rfl⟩
  · cases h

/-- The decoder's input step: the frame fails, the group completes, or the symbol is accumulated (42_decode R161). -/
theorem decodeItem_cases {x : Byte} (h : decodeItem x s = .next t) :
    (isSymbol x = false ∧ t = errorEntry codeInvalidSymbol x (s.rem - 1) (countItem s)) ∨
      (isSymbol x = true ∧ s.gcnt.toNat ≤ 4 ∧
        (((s.gcnt.toNat + 1 = 5 ∨ s.rem = 1) ∧ accumulate s.acc.toNat x < 85 ^ (s.gcnt.toNat + 1) ∧
            2 ≤ s.gcnt.toNat + 1 ∧
            t = loadOutput (groupBytes (accumulate s.acc.toNat x) (s.gcnt.toNat + 1))
              (clearGroup (countItem s))) ∨
          (¬(s.gcnt.toNat + 1 = 5 ∨ s.rem = 1) ∧ accumulate s.acc.toNat x < 2 ^ 33 ∧
            t = holdGroup (accumulate s.acc.toNat x) (s.gcnt.toNat + 1) (countItem s)))) := by
  simp only [decodeItem, Config.decGroupLen] at h
  split at h
  · rename_i hx
    exact .inl ⟨hx, by cases h; rfl⟩
  · rename_i hx
    have hx' : isSymbol x = true := by simpa using hx
    split at h
    · rename_i hg
      split at h
      · rename_i hc
        obtain ⟨⟨ha, hL, _⟩, rfl⟩ := completeGroup_next.1 h
        exact .inr ⟨hx', hg, .inl ⟨hc, ha, hL, rfl⟩⟩
      · rename_i hc
        split at h
        · rename_i ha
          exact .inr ⟨hx', hg, .inr ⟨hc, ha, by cases h; rfl⟩⟩
        · cases h
    · cases h

/-- The output step: the last item of the group, or one before it (40_frame_control R104). -/
theorem outXfer_cases (h : outXfer s = .next t) :
    ∃ hi : s.oidx.toNat < 5, s.ocnt.toNat + 1 < 2 ^ 32 ∧
      ((s.oidx.toNat + 1 = s.olen.toNat ∧ t = closeOutput (give s.obuf[s.oidx.toNat] s)) ∨
        (s.oidx.toNat + 1 ≠ s.olen.toNat ∧ t = nextOutput (give s.obuf[s.oidx.toNat] s))) := by
  unfold outXfer at h
  split at h
  · rename_i hb
    refine ⟨hb.1, hb.2, ?_⟩
    split at h
    · rename_i hl
      exact .inl ⟨hl, by cases h; rfl⟩
    · rename_i hl
      exact .inr ⟨hl, by cases h; rfl⟩
  · cases h

/-- Whatever the command, its acceptance happens in IDLE, makes the shared writes of 40_frame_control R101 and leaves
OBUF and the host's side alone. -/
theorem exec_next {i : Instr} (h : exec i s = .next t) :
    s.st = .idle ∧ t.op = opOf i ∧ t.rem = lenOf i ∧ t.acc = 0 ∧ t.gcnt = 0 ∧ t.olen = 0 ∧ t.oidx = 0 ∧ t.ocnt = 0 ∧
      t.obuf = s.obuf ∧ t.rst = s.rst ∧ t.cmdIn = s.cmdIn ∧ t.itemIn = s.itemIn ∧ t.outReady = s.outReady ∧
      t.rspReady = s.rspReady ∧ t.itemOut = s.itemOut ∧ t.rspOut = s.rspOut := by
  cases i with
  | encode len =>
    obtain ⟨hs, rfl⟩ := acceptCommand_next.1 h
    simp [hs, opOf, lenOf]
  | decode len =>
    obtain ⟨hs, rfl⟩ := acceptCommand_next.1 h
    unfold decodeAcceptance
    split <;> simp [hs, opOf, lenOf]
  | _ len =>
    obtain ⟨hs, rfl⟩ := rejectCommand_next.1 h
    simp [hs, opOf, lenOf]

/-- EVERYTHING A STEP CAN DO (40_frame_control R100): the reset, or one transfer with its enabling condition. -/
theorem step_cases (h : step s = .next t) :
    (s.rst = true ∧ t = resetRegs s) ∨
    (s.rst = false ∧
      ((s.st = .idle ∧ ∃ w ws, s.cmdIn = w :: ws ∧ exec (decodeWord w) (popCommand s) = .next t) ∨
       (s.st = .enc ∧ s.olen = 0 ∧ s.rem ≠ 0 ∧ ∃ x xs, s.itemIn = x :: xs ∧ encodeItem x (popItem s) = .next t) ∨
       (s.st = .dec ∧ s.olen = 0 ∧ s.rem ≠ 0 ∧ ∃ x xs, s.itemIn = x :: xs ∧ decodeItem x (popItem s) = .next t) ∨
       (s.st = .drain ∧ s.rem ≠ 0 ∧ ∃ x xs, s.itemIn = x :: xs ∧ t = discardItem (popItem s)) ∨
       ((s.st = .enc ∨ s.st = .dec) ∧ s.oidx.toNat < s.olen.toNat ∧ s.outReady = true ∧ outXfer s = .next t) ∨
       (s.st = .resp ∧ s.rspReady = true ∧ t = deliverResponse s))) := by
  unfold step enabledTransfer at h
  cases hr : s.rst with
  | true => simp [hr, fire] at h; exact .inl ⟨rfl, h.symm⟩
  | false =>
    refine .inr ⟨rfl, ?_⟩
    cases hs : s.st with
    | idle =>
      cases hc : s.cmdIn with
      | nil => simp [hr, cmdReady, hs, hc, fire] at h
      | cons w ws => simp [hr, cmdReady, hs, hc, fire] at h; simp [h]
    | enc =>
      by_cases ho : s.olen = 0 ∧ s.rem ≠ 0
      · have hm : s.rem ≠ 0#28 := ho.2
        have hb : inReady s = true := by simp [inReady, hs, ho.1, hm]
        cases hi : s.itemIn with
        | nil => simp [hr, cmdReady, hs, hb, hi, fire] at h
        | cons x xs =>
          simp [hr, cmdReady, hs, hb, hi, fire, inXfer] at h
          simp [ho.1, hm, h]
      · have hb : inReady s = false := by
          simp only [inReady, hs]
          simpa using ho
        by_cases hv : s.oidx.toNat < s.olen.toNat <;> cases hq : s.outReady <;>
          simp [hr, cmdReady, hs, hb, outValid, rspValid, hv, hq, fire] at h
        simp [hv, h]
    | dec =>
      by_cases ho : s.olen = 0 ∧ s.rem ≠ 0
      · have hm : s.rem ≠ 0#28 := ho.2
        have hb : inReady s = true := by simp [inReady, hs, ho.1, hm]
        cases hi : s.itemIn with
        | nil => simp [hr, cmdReady, hs, hb, hi, fire] at h
        | cons x xs =>
          simp [hr, cmdReady, hs, hb, hi, fire, inXfer] at h
          simp [ho.1, hm, h]
      · have hb : inReady s = false := by
          simp only [inReady, hs]
          simpa using ho
        by_cases hv : s.oidx.toNat < s.olen.toNat <;> cases hq : s.outReady <;>
          simp [hr, cmdReady, hs, hb, outValid, rspValid, hv, hq, fire] at h
        simp [hv, h]
    | drain =>
      by_cases hm : s.rem = 0#28 <;> cases hi : s.itemIn <;>
        simp [hr, hs, hm, hi, cmdReady, inReady, outValid, rspValid, fire, inXfer, drainItem] at h
      simp [hm, h]
    | resp =>
      cases hq : s.rspReady <;>
        simp [hr, hs, hq, cmdReady, inReady, outValid, rspValid, fire, rspXfer] at h
      simp [h]

end Sys2Proof.Machine
end

