-- ==== Sys2Proof/Laws/HostRun.lean ====
section
/-! SUPPORT. The host's book of a run: what each entry writes, what an advance can do, and that the book follows the
core. -/

namespace Sys2Proof.Machine

variable (r : HostRun) (t : State)

/-! start, act, enter -/

@[simp] theorem start_core : (HostRun.start t).core = t := rfl
@[simp] theorem start_opened : (HostRun.start t).opened = none := rfl
@[simp] theorem start_done : (HostRun.start t).done = [] := rfl

@[simp] theorem act_core (a : HostAct) : (r.act a).core = hostAct a r.core := rfl
@[simp] theorem act_opened (a : HostAct) : (r.act a).opened = r.opened := rfl
@[simp] theorem act_done (a : HostAct) : (r.act a).done = r.done := rfl

@[simp] theorem enter_core (k : Transfer) : (r.enter k t).core = t := by cases k <;> rfl

@[simp] theorem enter_reset : r.enter .reset t = ⟨t, none, r.done⟩ := rfl
@[simp] theorem enter_command (w : CmdWord) : r.enter (.command w) t = ⟨t, some ⟨w, []⟩, r.done⟩ := rfl
@[simp] theorem enter_input (x : Byte) :
    r.enter (.input x) t = ⟨t, r.opened.map fun f => { f with items := f.items ++ [x] }, r.done⟩ := rfl
@[simp] theorem enter_output : r.enter .output t = ⟨t, r.opened, r.done⟩ := rfl
@[simp] theorem enter_response : r.enter .response t = ⟨t, none, r.done ++ r.opened.toList⟩ := rfl

/-! The observed registers -/

@[simp] theorem registers_st : t.registers.st = t.st := rfl
@[simp] theorem registers_op : t.registers.op = t.op := rfl
@[simp] theorem registers_rem : t.registers.rem = t.rem := rfl
@[simp] theorem registers_acc : t.registers.acc = t.acc := rfl
@[simp] theorem registers_gcnt : t.registers.gcnt = t.gcnt := rfl
@[simp] theorem registers_obuf : t.registers.obuf = t.obuf.toList.take t.olen.toNat := rfl
@[simp] theorem registers_olen : t.registers.olen = t.olen := rfl
@[simp] theorem registers_oidx : t.registers.oidx = t.oidx := rfl
@[simp] theorem registers_status : t.registers.status = t.status := rfl
@[simp] theorem registers_info : t.registers.info = t.info := rfl
@[simp] theorem registers_ocnt : t.registers.ocnt = t.ocnt := rfl

/-- 93 U4: OBUF entries from OLEN on can hold anything, the observed registers are the same. -/
theorem registers_ignore_dead_obuf (b : Vector Byte 5)
    (h : ∀ (i : Nat) (hi : i < 5), i < t.olen.toNat → b[i] = t.obuf[i]) :
    State.registers { t with obuf := b } = t.registers := by
  have hb : b.toList.take t.olen.toNat = t.obuf.toList.take t.olen.toNat := by
    apply List.ext_getElem (by simp)
    intro i h₁ _
    simp only [List.length_take, Vector.length_toList, lt_min_iff] at h₁
    simpa using h i h₁.2 h₁.1
  simp only [State.registers, hb]

/-- At the end of a run OLEN is 0, and the observation has no OBUF entry. -/
theorem registers_obuf_of_ended {p : List Frame} (hi : HostRunInvariant r) (he : RunEnded p r) :
    r.core.registers.obuf = [] := by
  have hq := hi.core.idleQuiet (hi.openedOutsideIdle.1 he.1)
  simp [hq.2.2.2.1]

/-! What an enabled transfer says of the state (40_frame_control R100) -/

theorem inReady_open {s : State} (h : inReady s = true) :
    (s.st = .enc ∨ s.st = .dec ∨ s.st = .drain) ∧ s.rem ≠ 0 := by
  unfold inReady at h
  cases hs : s.st <;> simp [hs] at h <;> simp [h]

theorem outValid_open {s : State} (h : outValid s = true) : s.st = .enc ∨ s.st = .dec := by
  unfold outValid at h
  cases hs : s.st <;> simp [hs] at h <;> simp

theorem enabledTransfer_reset {s : State} : enabledTransfer s = .reset ↔ s.rst = true := by
  unfold enabledTransfer
  repeat' split
  all_goals simp_all

theorem enabledTransfer_command {s : State} {w : CmdWord} (h : enabledTransfer s = .command w) :
    s.rst = false ∧ cmdReady s = true ∧ ∃ ws, s.cmdIn = w :: ws := by
  unfold enabledTransfer at h
  repeat' split at h
  all_goals cases h
  exact ⟨by simpa using ‹¬s.rst = true›, ‹_›, _, ‹_›⟩

theorem enabledTransfer_input {s : State} {x : Byte} (h : enabledTransfer s = .input x) :
    s.rst = false ∧ inReady s = true ∧ ∃ xs, s.itemIn = x :: xs := by
  unfold enabledTransfer at h
  repeat' split at h
  all_goals cases h
  exact ⟨by simpa using ‹¬s.rst = true›, ‹_›, _, ‹_›⟩

theorem enabledTransfer_output {s : State} (h : enabledTransfer s = .output) :
    s.rst = false ∧ outValid s = true := by
  unfold enabledTransfer at h
  repeat' split at h
  all_goals cases h
  exact ⟨by simpa using ‹¬s.rst = true›, ‹_›⟩

theorem enabledTransfer_response {s : State} (h : enabledTransfer s = .response) :
    s.rst = false ∧ rspValid s = true := by
  unfold enabledTransfer at h
  repeat' split at h
  all_goals cases h
  exact ⟨by simpa using ‹¬s.rst = true›, ‹_›⟩

/-! advance and advanceBy -/

variable {r t}

theorem advance_next {q : HostRun} :
    r.advance = .next q ↔ step r.core = .next q.core ∧ q = r.enter (enabledTransfer r.core) q.core := by
  unfold HostRun.advance
  constructor
  · intro h
    split at h
    · rename_i t ht
      cases h
      exact ⟨by simpa using ht, by simp⟩
    · cases h
    · cases h
  · rintro ⟨h, hq⟩
    rw [h]
    exact congrArg _ hq.symm

/-- EVERYTHING AN ADVANCE CAN DO: which step the core took, and what the book then holds. -/
theorem advance_cases {q : HostRun} (h : r.advance = .next q) :
    (r.core.rst = true ∧ q = ⟨resetRegs r.core, none, r.done⟩) ∨
    (r.core.rst = false ∧
      ((r.core.st = .idle ∧ ∃ w ws, r.core.cmdIn = w :: ws ∧
          exec (decodeWord w) (popCommand r.core) = .next q.core ∧ q.opened = some ⟨w, []⟩ ∧ q.done = r.done) ∨
       ((r.core.st = .enc ∨ r.core.st = .dec ∨ r.core.st = .drain) ∧ r.core.rem ≠ 0 ∧
          ∃ x xs, r.core.itemIn = x :: xs ∧ inXfer x (popItem r.core) = .next q.core ∧
            q.opened = r.opened.map (fun f => { f with items := f.items ++ [x] }) ∧ q.done = r.done) ∨
       ((r.core.st = .enc ∨ r.core.st = .dec) ∧ outXfer r.core = .next q.core ∧
          q.opened = r.opened ∧ q.done = r.done) ∨
       (r.core.st = .resp ∧ q = ⟨deliverResponse r.core, none, r.done ++ r.opened.toList⟩))) := by
  obtain ⟨hs, hq⟩ := advance_next.1 h
  rw [step] at hs
  cases hk : enabledTransfer r.core with
  | none why => rw [hk] at hs; cases hs
  | reset =>
    rw [hk] at hs hq
    have hs : resetRegs r.core = q.core := Host.Outcome.next.inj hs
    rw [← hs] at hq
    exact .inl ⟨enabledTransfer_reset.1 hk, hq⟩
  | command w =>
    rw [hk] at hs hq
    obtain ⟨hr, hc, ws, hi⟩ := enabledTransfer_command hk
    exact .inr ⟨hr, .inl ⟨by simpa [cmdReady] using hc, w, ws, hi, hs, (congrArg HostRun.opened hq).trans rfl,
      (congrArg HostRun.done hq).trans rfl⟩⟩
  | input x =>
    rw [hk] at hs hq
    obtain ⟨hr, hb, xs, hi⟩ := enabledTransfer_input hk
    exact .inr ⟨hr, .inr (.inl ⟨(inReady_open hb).1, (inReady_open hb).2, x, xs, hi, hs,
      (congrArg HostRun.opened hq).trans rfl, (congrArg HostRun.done hq).trans rfl⟩)⟩
  | output =>
    rw [hk] at hs hq
    obtain ⟨hr, hv⟩ := enabledTransfer_output hk
    exact .inr ⟨hr, .inr (.inr (.inl ⟨outValid_open hv, hs, (congrArg HostRun.opened hq).trans rfl,
      (congrArg HostRun.done hq).trans rfl⟩))⟩
  | response =>
    rw [hk] at hs hq
    have hs : deliverResponse r.core = q.core := Host.Outcome.next.inj hs
    rw [← hs] at hq
    obtain ⟨hr, hp⟩ := enabledTransfer_response hk
    exact .inr ⟨hr, .inr (.inr (.inr ⟨by simpa [rspValid] using hp, hq⟩))⟩

/-- The book follows the core: its run is the core's. -/
theorem advanceBy_core {n : Nat} {q : HostRun} (h : r.advanceBy n = .next q) : run n r.core = .next q.core := by
  induction n generalizing r with
  | zero => cases h; rfl
  | succ n ih =>
    simp only [HostRun.advanceBy] at h
    split at h
    · rename_i t ht
      rw [run, (advance_next.1 ht).1]
      exact ih h
    · cases h
    · cases h

/-- Every run of the core is the run of a book. -/
theorem advanceBy_of_run {n : Nat} {t : State} (h : run n r.core = .next t) :
    ∃ q : HostRun, r.advanceBy n = .next q ∧ q.core = t := by
  induction n generalizing r with
  | zero => cases h; exact ⟨r, rfl, rfl⟩
  | succ n ih =>
    simp only [run] at h
    split at h
    · rename_i u hu
      have ha : r.advance = .next (r.enter (enabledTransfer r.core) u) := by simp only [HostRun.advance, hu]
      rw [HostRun.advanceBy, ha]
      exact ih (by simpa using h)
    · cases h
    · cases h

end Sys2Proof.Machine
end

