-- ==== Sys2Proof/Laws/PerInstr.lean ====
section
/-! SUPPORT. Statements made per command. WordOfCommand: the word of a command is `OP·2^28 + LEN`
(30_encoding R71, R90), and the command is well formed (R78). -/

namespace Sys2Proof.Laws.WordOfCommand

/-- The family's statement. -/
def Statement (i : Instr) : Prop :=
  i.wf = true ∧ (encodeWord i).toNat = (opOf i).toNat * 2 ^ 28 + (lenOf i).toNat

/-- `{a, b}` has `a` in the more significant position (00_scope R10). -/
theorem field_value (a : OpCode) (b : FrameLen) : (a ++ b).toNat = a.toNat * 2 ^ 28 + b.toNat := by
  rw [BitVec.toNat_append, ← Nat.shiftLeft_add_eq_or_of_lt b.isLt, Nat.shiftLeft_eq]

theorem encode (len : FrameLen) : Statement (.encode len) := ⟨rfl, field_value _ _⟩
theorem decode (len : FrameLen) : Statement (.decode len) := ⟨rfl, field_value _ _⟩
theorem illegal0 (len : FrameLen) : Statement (.illegal0 len) := ⟨rfl, field_value _ _⟩
theorem illegal3 (len : FrameLen) : Statement (.illegal3 len) := ⟨rfl, field_value _ _⟩
theorem illegal4 (len : FrameLen) : Statement (.illegal4 len) := ⟨rfl, field_value _ _⟩
theorem illegal5 (len : FrameLen) : Statement (.illegal5 len) := ⟨rfl, field_value _ _⟩
theorem illegal6 (len : FrameLen) : Statement (.illegal6 len) := ⟨rfl, field_value _ _⟩
theorem illegal7 (len : FrameLen) : Statement (.illegal7 len) := ⟨rfl, field_value _ _⟩
theorem illegal8 (len : FrameLen) : Statement (.illegal8 len) := ⟨rfl, field_value _ _⟩
theorem illegal9 (len : FrameLen) : Statement (.illegal9 len) := ⟨rfl, field_value _ _⟩
theorem illegalA (len : FrameLen) : Statement (.illegalA len) := ⟨rfl, field_value _ _⟩
theorem illegalB (len : FrameLen) : Statement (.illegalB len) := ⟨rfl, field_value _ _⟩
theorem illegalC (len : FrameLen) : Statement (.illegalC len) := ⟨rfl, field_value _ _⟩
theorem illegalD (len : FrameLen) : Statement (.illegalD len) := ⟨rfl, field_value _ _⟩
theorem illegalE (len : FrameLen) : Statement (.illegalE len) := ⟨rfl, field_value _ _⟩
theorem illegalF (len : FrameLen) : Statement (.illegalF len) := ⟨rfl, field_value _ _⟩

end Sys2Proof.Laws.WordOfCommand
end

