-- ==== Sys2Proof/Tests/Slice0.lean ====
section
/-! SUPPORT. Tests with expected results from the spec (95_test_vectors and the rules' own examples), the smoke tests
of the well-formedness checks, and a witness for the hypotheses of each statement that has some. -/

namespace Sys2Proof.Tests

open Sys2Proof.Machine

/-- The next state, where there is one. -/
def nextOf {σ : Type} (r : Host.Outcome σ Fault Refusal) : Option σ :=
  match r with
  | .next t => some t
  | _ => none

theorem next_of_nextOf {σ : Type} {r : Host.Outcome σ Fault Refusal} {t : σ} (h : nextOf r = some t) : r = .next t := by
  cases r <;> simp_all [nextOf]

/-- The reset state with an eager host that presents these. -/
def hosting (cmds : List CmdWord) (items : List Byte) : State :=
  { State.reset with cmdIn := cmds, itemIn := items }

/-- Program P1 of 95 section 3 after IN 64: the byte 66 completes the group. -/
def encodeMid : State :=
  { hosting [] [0x66] with st := .enc, op := 1, rem := 1, acc := 0x61736400, gcnt := 3 }

/-- P1 after IN 66: five symbols pending. -/
def encodePending : State :=
  { hosting [] [] with st := .enc, op := 1, obuf := #v[0x76, 0x72, 0x6B, 0x3B, 0x2C], olen := 5 }

/-- P1 after IN 3B: the symbol 2C completes the group. OBUF holds the encoded frame's symbols. -/
def decodeMid : State :=
  { hosting [] [0x2C] with
    st := .dec, op := 2, rem := 1, acc := 0x1257FAC, gcnt := 4, obuf := #v[0x76, 0x72, 0x6B, 0x3B, 0x2C] }

/-- P3 before IN 22: the group `zY` is open and the item `"` is next. -/
def decodeBad : State :=
  { hosting [] [0x22, 0x6D, 0x25] with
    st := .dec, op := 2, rem := 3, acc := 0xBDB, gcnt := 2, obuf := #v[0x68, 0x65, 0x6C, 0x6C, 0x00], ocnt := 4 }

/-- P3 after IN 22: draining. -/
def draining : State :=
  { decodeBad with itemIn := [0x6D, 0x25], st := .drain, rem := 2, acc := 0, gcnt := 0, status := 2, info := 0x22 }

/-- P3 before its first response. -/
def responding : State := { draining with itemIn := [], st := .resp, rem := 0 }

/-- P3's first frame. -/
def failingFrame : Frame := ⟨0x2000000A, [0x78, 0x4B, 0x23, 0x30, 0x40, 0x7A, 0x59, 0x22, 0x6D, 0x25]⟩

/-- P3's second frame: a reserved OP with two items. -/
def reservedFrame : Frame := ⟨0x30000002, [0x61, 0x62]⟩

/-- The book of P3 before its first response. -/
def respondingRun : HostRun := ⟨responding, some failingFrame, []⟩

/-- The same with the response delivered. -/
def respondedRun : HostRun :=
  ⟨{ responding with st := .idle, rspOut := [0x2022000000000004] }, none, [failingFrame]⟩

-- ==== Decoding (30_encoding R71, R73): one word written out for each constructor ====

theorem test_decode_encode : decodeWord 0b00010000000000000000000000000100 = .encode 4 := by decide
theorem test_decode_decode : decodeWord 0b00100000000000000000000000001110 = .decode 14 := by decide
theorem test_decode_illegal0 : decodeWord 0b00000000000000000000000000000000 = .illegal0 0 := by decide
theorem test_decode_illegal3 : decodeWord 0b00110000000000000000000000000010 = .illegal3 2 := by decide
theorem test_decode_illegal4 : decodeWord 0b01000000000000000000000000000010 = .illegal4 2 := by decide
theorem test_decode_illegal5 : decodeWord 0b01010000000000000000000000000010 = .illegal5 2 := by decide
theorem test_decode_illegal6 : decodeWord 0b01100000000000000000000000000010 = .illegal6 2 := by decide
theorem test_decode_illegal7 : decodeWord 0b01110000000000000000000000000010 = .illegal7 2 := by decide
theorem test_decode_illegal8 : decodeWord 0b10000000000000000000000000000010 = .illegal8 2 := by decide
theorem test_decode_illegal9 : decodeWord 0b10010000000000000000000000000010 = .illegal9 2 := by decide
theorem test_decode_illegalA : decodeWord 0b10101000000000000000000000000001 = .illegalA 0x8000001 := by decide
theorem test_decode_illegalB : decodeWord 0b10110000000000000000000000000010 = .illegalB 2 := by decide
theorem test_decode_illegalC : decodeWord 0b11000000000000000000000000000010 = .illegalC 2 := by decide
theorem test_decode_illegalD : decodeWord 0b11010000000000000000000000000010 = .illegalD 2 := by decide
theorem test_decode_illegalE : decodeWord 0b11100000000000000000000000000010 = .illegalE 2 := by decide
theorem test_decode_illegalF : decodeWord 0b11111111111111111111111111111111 = .illegalF 0xFFFFFFF := by decide

/-- The encoder's words (30_encoding R90). -/
theorem test_encode_words :
    encodeWord (.encode 4) = 0x10000004 ∧ encodeWord (.decode 0xFFFFFFF) = 0x2FFFFFFF ∧
      encodeWord (.illegalF 1) = 0xF0000001 := by decide

theorem test_table_word :
    decodeTableWord 32 0x10000000 = some (.encode 0) ∧ decodeTableWord 8 0x00 = some (.illegal0 0) ∧
      decodeTableWord 40 0x10000000 = none ∧ decodeTableWord 8 0x100 = none := by decide

-- ==== Well-formedness: each check refuses an ill-formed term ====

/-- LEN of 2^28 cannot be written (30_encoding R90, 93 U20). -/
theorem test_wf_length : Line.wf (.encode 0x10000000) = false ∧ Line.wf (.decode 0x10000000) = false ∧
    Line.wf (.encode 0xFFFFFFF) = true := by decide

theorem test_wf_cmd : Line.wf (.cmd 0x100000000) = false ∧ Line.wf (.cmd 0xFFFFFFFF) = true := by decide

theorem test_wf_bytes : Line.wf (.bytes [0x61, 0x100]) = false ∧ Line.wf (.encodeBytes [0x100]) = false := by decide

theorem test_wf_text : Line.wf (.text [0x61, 0xE9]) = false ∧ Line.wf (.decodeText [0x80]) = false ∧
    Line.wf (.decodeToText [0x80]) = false ∧ Line.wf (.encodeText [0x110000]) = false := by decide

/-- A frame whose items do not number its LEN (30_encoding R91). -/
theorem test_wf_frame : Frame.wf ⟨0x10000002, [0x61]⟩ = false ∧ Frame.wf ⟨0x10000001, [0x61]⟩ = true := by decide

/-- An alphabet of 84, one with a repeated character, one with a space, and another pad digit (00_scope R8). -/
theorem test_illegal_params :
    (⟨symRom.tail, 84⟩ : Config.Params).legal = false ∧ (⟨0x31 :: symRom.tail, 84⟩ : Config.Params).legal = false ∧
      (⟨0x20 :: symRom.tail, 84⟩ : Config.Params).legal = false ∧ (⟨symRom, 0⟩ : Config.Params).legal = false ∧
      coreParams.legal = true := by decide +kernel

/-- 93 U14: a character that does not fit in 8 bits never reaches the core. -/
theorem test_wide_character : itemOfCode 0x20AC = none ∧ itemOfCode 0x7E = some 0x7E := by decide

-- ==== The datapath (95 sections 2.1 and 2.3) ====

/-- Rows of 95 section 2.1: `6F`, `FF FF`, `41 42 43`, `61 73 64 66`, `03 1C 84 B0`, `FF FF FF FF`. -/
theorem test_encode_groups :
    encGroup [0x6F] = [0x7A, 0x56] ∧ encGroup [0xFF, 0xFF] = [0x3B, 0x6E, 0x4A] ∧
      encGroup [0x41, 0x42, 0x43] = [0x6B, 0x3B, 0x7E, 0x7B] ∧
      encGroup [0x61, 0x73, 0x64, 0x66] = [0x76, 0x72, 0x6B, 0x3B, 0x2C] ∧
      encGroup [0x03, 0x1C, 0x84, 0xB0] = [0x30, 0x23, 0x23, 0x23, 0x23] ∧
      encGroup [0xFF, 0xFF, 0xFF, 0xFF] = [0x3B, 0x6E, 0x53, 0x63, 0x30] := by decide

theorem test_digits : digits85 0x12345678 = [5, 72, 27, 55, 21] ∧ digits85 0xFFFFFFFF = [82, 23, 54, 12, 0] := by
  decide

/-- Rows of 95 section 2.3: `@@`, `;n`, `;nJ`, `####`, `vrk;,`, `$0000`. -/
theorem test_decode_groups :
    decGroup [0x40, 0x40] = [0xFF] ∧ decGroup [0x3B, 0x6E] = [0x00] ∧ decGroup [0x3B, 0x6E, 0x4A] = [0xFF, 0xFF] ∧
      decGroup [0x23, 0x23, 0x23, 0x23] = [0x08, 0x78, 0x0E] ∧
      decGroup [0x76, 0x72, 0x6B, 0x3B, 0x2C] = [0x61, 0x73, 0x64, 0x66] ∧
      decGroup [0x24, 0x30, 0x30, 0x30, 0x30] = [0x02, 0x3F, 0x05, 0x63] := by decide

/-- 42_decode R163: `@@` padded with 84 is 0xFF06_63EA; 0xFEFD_04FE, padded with 0, is wrong. -/
theorem test_pad_digit : padValue (81 * 85 + 81) 2 = 0xFF0663EA := by decide

/-- 90_conflicts C1, C2: the encodings of "hello" and "hello world", not the source's literals. -/
theorem test_hello :
    enc [0x68, 0x65, 0x6C, 0x6C, 0x6F] = codes "xK#0@zV" ∧
      enc (codes "hello world") = codes "xK#0@zY_mxA+]m" := by decide
where codes (s : String) : List Byte := (Machine.codes s).map (BitVec.ofNat 8)

/-- Rows of 95 section 2.4: length over symbol; the first invalid symbol; the groups before it. -/
theorem test_decode_frames :
    dec [0x22] = ⟨1, 0, []⟩ ∧ dec [0x76, 0x72, 0x6B, 0x3B, 0x2C, 0x22] = ⟨1, 0, []⟩ ∧
      dec [0x80, 0x81] = ⟨2, 0x80, []⟩ ∧
      dec [0x76, 0x72, 0x6B, 0x3B, 0x2C, 0x61, 0x62, 0x22] = ⟨2, 0x22, [0x61, 0x73, 0x64, 0x66]⟩ := by
  decide +kernel

-- ==== One step each (95 section 3: the traces of P1 and P3) ====

/-- CMD 0x1000_0004 (P1). -/
theorem test_step_encode :
    nextOf (step (hosting [0x10000004] [])) = some { State.reset with st := .enc, op := 1, rem := 4 } := by decide

/-- ENCODE 0 goes straight to RESP (95 section 2.5). -/
theorem test_step_encode_empty :
    nextOf (step (hosting [0x10000000] [])) = some { State.reset with st := .resp, op := 1 } := by decide

/-- CMD 0x2000_0005 (P1). -/
theorem test_step_decode :
    nextOf (step (hosting [0x20000005] [])) = some { State.reset with st := .dec, op := 2, rem := 5 } := by decide

/-- CMD 0x2000_0006: a length error at acceptance (95 section 2.5). -/
theorem test_step_decode_length_error :
    nextOf (step (hosting [0x20000006] [])) =
      some { State.reset with st := .drain, op := 2, rem := 6, status := 1 } := by decide

/-- The reserved words of 95 section 2.5, two items each: INFO is OP, and the items are to be drained. -/
theorem test_step_reserved :
    ∀ op ∈ ([0x0, 0x3, 0x4, 0x5, 0x6, 0x7, 0x8, 0x9, 0xA, 0xB, 0xC, 0xD, 0xE, 0xF] : List OpCode),
      nextOf (step (hosting [op ++ (2 : FrameLen)] [])) =
        some { State.reset with st := .drain, op := op, rem := 2, status := 3, info := op.zeroExtend 8 } := by decide

/-- The all-zero word is illegal, not a no-op (40_frame_control R110). -/
theorem test_step_zero_word :
    nextOf (step (hosting [0x00000000] [])) = some { State.reset with st := .resp, status := 3 } := by decide

/-- IN 66 (P1). -/
theorem test_step_encode_completes : nextOf (step encodeMid) = some encodePending := by decide

/-- OUT 2C (P1), and the output before it. -/
theorem test_step_output :
    nextOf (step { encodePending with oidx := 4, ocnt := 4 }) =
        some { encodePending with st := .resp, olen := 0, ocnt := 5, itemOut := [0x2C] } ∧
      nextOf (step encodePending) = some { encodePending with oidx := 1, ocnt := 1, itemOut := [0x76] } := by decide

/-- IN 2C (P1): OBUF[4] keeps the encoded frame's 2C. -/
theorem test_step_decode_completes :
    nextOf (step decodeMid) =
      some { hosting [] [] with st := .dec, op := 2, obuf := #v[0x61, 0x73, 0x64, 0x66, 0x2C], olen := 4 } := by
  decide

/-- IN 22 (P3). -/
theorem test_step_invalid_symbol : nextOf (step decodeBad) = some draining := by decide

/-- IN 6D (P3): drained, not inspected. -/
theorem test_step_drain : nextOf (step draining) = some { draining with itemIn := [0x25], rem := 1 } := by decide

/-- RSP 2022000000000004 (P3). -/
theorem test_step_response :
    nextOf (step responding) = some { responding with st := .idle, rspOut := [0x2022000000000004] } := by decide

/-- 95 section 2.6: reset in the middle of a frame. -/
theorem test_step_reset :
    nextOf (step { encodePending with rst := true, rem := 1, itemIn := [0x6F] }) =
      some { hosting [] [0x6F] with rst := true } := by decide

/-- 40_frame_control R112: the response of the last command ends the run of a program of one frame. -/
theorem test_run_ends :
    nextOf respondingRun.advance = some respondedRun ∧ RunEnded [failingFrame] respondedRun ∧
      ¬ RunEnded [failingFrame] respondingRun := by decide

/-- 40_frame_control R112: "commands of the program not yet accepted": at reset, between two late commands, and after
a reset in the middle of a frame (70 R232) the run has not ended, though ST = IDLE and no command is presented. -/
theorem test_run_not_ended :
    ¬ RunEnded [failingFrame] (HostRun.start State.reset) ∧ ¬ RunEnded [failingFrame, reservedFrame] respondedRun ∧
      (nextOf (HostRun.advance { respondingRun with core := { responding with rst := true } })).map
          (fun r => (decide (RunEnded [failingFrame] r), r.core.st, r.core.cmdIn, r.core.rspOut)) =
        some (false, .idle, [], []) := by decide

/-- The core waits: in IDLE for a command, in a frame for its next item (93 U17, U19). -/
theorem test_step_waits :
    enabledTransfer (hosting [] [0x6F]) = .none .noCommand ∧
      enabledTransfer { encodeMid with itemIn := [] } = .none .noInputItem ∧
      enabledTransfer { encodePending with outReady := false } = .none .outputNotAccepted ∧
      enabledTransfer { responding with rspReady := false } = .none .responseNotAccepted := by decide

/-- 40_frame_control R111's quantity rises when a group is converted: REM + 1 = 2 before, 5 + 1 = 6 after (log 12). -/
theorem test_quantity_rises : quantityR111 encodeMid < quantityR111 encodePending := by decide

/-- 42_decode R173 with a second part of one symbol: the whole frame fails, and its output is not the first part's
(log 19). -/
theorem test_lone_symbol_takes_the_frame :
    (dec ([0x30, 0x30, 0x30, 0x30, 0x30] ++ [0x30])).out ≠
      (dec [0x30, 0x30, 0x30, 0x30, 0x30]).out ++ (dec [0x30]).out := by decide +kernel

/-- Lines of P1 and P3 in the notation of 30_encoding R90 and R91, comments included. -/
theorem test_read_lines :
    readLine (codes "ENCODE 4            ; 0x1000_0004") = some (.encode 4) ∧
      readLine (codes ".bytes 61 73 64 66  ; asdf") = some (.bytes [0x61, 0x73, 0x64, 0x66]) ∧
      readLine (codes ".cmd 0x30000002") = some (.cmd 0x30000002) ∧
      readLine (codes ".text \"zY\\\"m\\\\\"") = some (.text [0x7A, 0x59, 0x22, 0x6D, 0x5C]) ∧
      readLine (codes "; a comment") = some .comment ∧ readLine (codes "NOP") = none := by decide +kernel

/-- The frames of P6's first lines. -/
theorem test_assemble :
    assemble [.cmd 0x00000000, .cmd 0xF0000001, .bytes [0x78]] =
        some [⟨0x00000000, []⟩, ⟨0xF0000001, [0x78]⟩] ∧
      assemble [.encode 2, .bytes [0x78]] = none ∧ assemble [.bytes [0x78], .encode 0] = none := by decide

-- ==== Witnesses: a state and operands that meet each statement's hypotheses ====

theorem witness_StepRunsTheDecodedCommand :
    ∃ (s : State) (w : CmdWord) (ws : List CmdWord), s.rst = false ∧ s.st = .idle ∧ s.cmdIn = w :: ws :=
  ⟨hosting [0x10000004, 0x20000005] [], 0x10000004, [0x20000005], rfl, rfl, rfl⟩

theorem witness_EncodeIsAccepted : State.reset.st = .idle ∧ (0 : FrameLen) ≠ 0xFFFFFFF := by decide

/-- The three clauses of acceptance at their boundary lengths: 0, 1, 2, 6 and the largest, 2^28 − 1. -/
theorem witness_DecodeIsAccepted :
    State.reset.st = .idle ∧ (0 : FrameLen).toNat % 5 ≠ 1 ∧ (1 : FrameLen).toNat % 5 = 1 ∧
      (2 : FrameLen).toNat % 5 ≠ 1 ∧ (6 : FrameLen).toNat % 5 = 1 ∧ (0xFFFFFFF : FrameLen).toNat % 5 ≠ 1 := by
  decide +kernel

theorem witness_ReservedOperationsAreRejected : responding.st ≠ .idle ∧ (hosting [] [0x61]).st = .idle := by decide

/-- One word for each clause: ENCODE, DECODE, a length error, a reserved OP with and without items. -/
theorem witness_EveryWordIsAcceptedInIdle :
    ∀ w ∈ ([0x10000000, 0x10000004, 0x20000000, 0x20000005, 0x20000001, 0x00000000, 0xFFFFFFFF] : List CmdWord),
      (hosting [w] []).rst = false ∧ (hosting [w] []).st = .idle ∧ (hosting [w] []).cmdIn = w :: [] :=
  fun _ _ => ⟨rfl, rfl, rfl⟩

theorem witness_CommandsWaitOutsideIdle :
    responding.st ≠ .idle ∧ responding.rst = false ∧
      ∃ t, step responding = .next t ∧ t.st = .idle :=
  ⟨by decide, rfl, _, next_of_nextOf test_step_response, rfl⟩

/-- The completing branch by the 4th byte and by the frame's last, and the packing branch. -/
theorem witness_EncodeInputPacksOrConverts :
    (encodeMid.rst = false ∧ encodeMid.st = .enc ∧ encodeMid.olen = 0 ∧ encodeMid.rem ≠ 0 ∧
      encodeMid.itemIn = 0x66 :: [] ∧ EncShape encodeMid) ∧
      EncShape { encodeMid with gcnt := 0, acc := 0 } ∧ EncShape { encodeMid with rem := 9 } ∧
      EncShape { encodeMid with gcnt := 2, acc := 0x61730000, rem := 9 } := by decide

/-- The completing branch by the 5th symbol and by the frame's last (a group of two), and the accumulating branch. -/
theorem witness_DecodeInputAccumulatesOrCompletes :
    (decodeMid.rst = false ∧ decodeMid.st = .dec ∧ decodeMid.olen = 0 ∧ decodeMid.rem ≠ 0 ∧
      decodeMid.itemIn = 0x2C :: [] ∧ DecShape decodeMid ∧ DecNoLoneSymbol decodeMid ∧ isSymbol 0x2C = true) ∧
      (DecShape { decodeMid with gcnt := 1, acc := 84 } ∧ DecNoLoneSymbol { decodeMid with gcnt := 1, acc := 84 }) ∧
      (DecShape { decodeMid with gcnt := 0, acc := 0, rem := 2 } ∧
        DecNoLoneSymbol { decodeMid with gcnt := 0, acc := 0, rem := 2 }) := by decide

theorem witness_InvalidSymbolFailsTheFrame :
    decodeBad.rst = false ∧ decodeBad.st = .dec ∧ decodeBad.olen = 0 ∧ decodeBad.rem ≠ 0 ∧
      decodeBad.itemIn = 0x22 :: [0x6D, 0x25] ∧ (valLut 0x22).getLsbD 7 = false := by decide

theorem witness_DrainDiscardsAnItem :
    draining.rst = false ∧ draining.st = .drain ∧ draining.rem ≠ 0 ∧ draining.itemIn = 0x6D :: [0x25] := by decide

/-- The last item of a group, and one before it. -/
theorem witness_OutputDeliversAnItem :
    ∀ i ∈ ([0, 4] : List (BitVec 3)),
      let s := { encodePending with oidx := i }
      s.rst = false ∧ (s.st = .enc ∨ s.st = .dec) ∧ s.outReady = true ∧ s.oidx.toNat < s.olen.toNat ∧
        s.oidx.toNat < 5 ∧ s.ocnt.toNat + 1 < 2 ^ 32 := by decide

theorem witness_ResponseReturnsToIdle :
    responding.rst = false ∧ responding.st = .resp ∧ responding.rspReady = true := by decide

theorem witness_ResetTakesEveryRegister : ({ draining with rst := true } : State).rst = true := rfl

/-- The states of the tests meet the invariants, with a group open, output pending, draining and responding. -/
theorem inv_encodePending : RunInvariant encodePending := by constructor <;> decide
theorem inv_encodeMid : RunInvariant encodeMid := by constructor <;> decide
theorem inv_decodeMid : RunInvariant decodeMid := by constructor <;> decide
theorem inv_draining : RunInvariant draining := by constructor <;> decide
theorem inv_responding : RunInvariant responding := by constructor <;> decide

theorem witness_StepIsTakenExactlyWhenEnabled :
    RunInvariant encodePending ∧ RunInvariant { draining with itemIn := [] } ∧ draining.st ≠ .idle :=
  ⟨inv_encodePending, by constructor <;> decide, by decide⟩

theorem witness_PendingOutputBlocksInput :
    (encodePending.st = .enc ∨ encodePending.st = .dec) ∧ 0 < encodePending.olen.toNat ∧
      ∃ t, step encodePending = .next t :=
  ⟨by decide, by decide, _, next_of_nextOf test_step_output.2⟩

theorem witness_DigitsAreTheUniqueRepresentation : (0xFFFFFFFF : Nat) < 2 ^ 32 := by decide

/-- Groups of 2 and of 5 symbols, below and at 2^32. -/
theorem witness_OverflowingGroupsWrap :
    ∀ g ∈ ([[0x40, 0x40], [0x3B, 0x6E], [0x3B, 0x6E, 0x53, 0x63, 0x30], [0x3B, 0x6E, 0x53, 0x63, 0x31]] : List (List Byte)),
      2 ≤ g.length ∧ g.length ≤ 5 ∧ ∀ c ∈ g, isSymbol c = true := by decide

theorem witness_EveryStepKeepsTheInvariants : RunInvariant encodeMid ∧ step encodeMid = .next encodePending :=
  ⟨inv_encodeMid, next_of_nextOf test_step_encode_completes⟩

theorem witness_EveryStepKeepsTheErrorDetail : ErrorDetail decodeBad ∧ step decodeBad = .next draining :=
  ⟨by decide, next_of_nextOf test_step_invalid_symbol⟩

/-- A state inside a frame is reachable: the host presents ENCODE 4 and the core accepts it. -/
theorem witness_RunsStayInsideTheInvariants :
    ∃ s : State, Reachable s ∧ s.st = .enc ∧ s.rem = 4 :=
  ⟨_, .step _ _ (.host (.presentCommand 0x10000004) _ .reset)
    (next_of_nextOf (t := { State.reset with st := .enc, op := 1, rem := 4 }) (by decide)), rfl, rfl⟩

/-- The three cases: a command, an item, an output. -/
theorem witness_OpAndRemAreWrittenByCommandsAndItemsOnly :
    (∃ t, (hosting [0x20000005] []).rst = false ∧ step (hosting [0x20000005] []) = .next t) ∧
      (draining.rst = false ∧ ∃ t, step draining = .next t) ∧
      (encodePending.rst = false ∧ ∃ t, step encodePending = .next t) :=
  ⟨⟨_, rfl, next_of_nextOf test_step_decode⟩, ⟨rfl, _, next_of_nextOf test_step_drain⟩,
    ⟨rfl, _, next_of_nextOf test_step_output.2⟩⟩

theorem witness_OcntCountsTheOutputTransfers :
    encodePending.rst = false ∧ outValid encodePending = true ∧ ∃ t, step encodePending = .next t :=
  ⟨rfl, by decide, _, next_of_nextOf test_step_output.2⟩

theorem witness_OnlyConversionsWriteObuf :
    decodeMid.rst = false ∧ ∃ t, step decodeMid = .next t ∧ t.obuf ≠ decodeMid.obuf :=
  ⟨rfl, _, next_of_nextOf test_step_decode_completes, by decide⟩

theorem witness_StatusIsWrittenByTheFirstErrorOnly :
    decodeBad.rst = false ∧ decodeBad.st ≠ .idle ∧ step decodeBad = .next draining :=
  ⟨rfl, by decide, next_of_nextOf test_step_invalid_symbol⟩

theorem witness_FailedFrameRecordsNothingMore :
    (draining.rst = false ∧ draining.st = .drain ∧ ∃ t, step draining = .next t) ∧
      (responding.rst = false ∧ responding.st = .resp ∧ ∃ t, step responding = .next t) :=
  ⟨⟨rfl, rfl, _, next_of_nextOf test_step_drain⟩, ⟨rfl, rfl, _, next_of_nextOf test_step_response⟩⟩

theorem witness_EveryTransferMakesProgress :
    RunInvariant encodeMid ∧ encodeMid.rst = false ∧ encodeMid.st ≠ .idle ∧ step encodeMid = .next encodePending :=
  ⟨inv_encodeMid, rfl, by decide, next_of_nextOf test_step_encode_completes⟩

theorem witness_HostTimingChangesNoStep :
    step { encodeMid with outReady := false } = .next { encodePending with outReady := false } :=
  next_of_nextOf (by decide)

theorem witness_EncodeFrameDeliversEnc :
    ∃ (b : List Byte) (s : State), b ≠ [] ∧ b.length < 2 ^ 28 ∧ s.st = .idle ∧ EagerHost s ∧
      s.cmdIn = [BitVec.ofNat 32 (0x10000000 + b.length)] ∧ s.itemIn = b ++ [0x6F] :=
  ⟨[0x61, 0x73], hosting [0x10000002] [0x61, 0x73, 0x6F], by decide⟩

theorem witness_DecodeFrameDeliversDec :
    ∃ (x : List Byte) (s : State), x ≠ [] ∧ x.length < 2 ^ 28 ∧ s.st = .idle ∧ EagerHost s ∧
      s.cmdIn = [BitVec.ofNat 32 (0x20000000 + x.length)] ∧ s.itemIn = x ++ [0x6F] :=
  ⟨[0x40, 0x40], hosting [0x20000002] [0x40, 0x40, 0x6F], by decide⟩

theorem witness_ReservedFrameIsDrained :
    ∃ (w : CmdWord) (x : List Byte) (s : State), w.extractLsb' 28 4 ≠ 0x1 ∧ w.extractLsb' 28 4 ≠ 0x2 ∧
      x.length = (w.extractLsb' 0 28).toNat ∧ s.st = .idle ∧ EagerHost s ∧ s.cmdIn = w :: [] ∧ s.itemIn = x ++ [] :=
  ⟨0xF0000001, [0x78], hosting [0xF0000001] [0x78], by decide⟩

/-- The frames of P3, offered whole. -/
theorem witness_FramesAreProcessedInOrder :
    ∃ (fs : List Frame) (s : State), fs.length = 3 ∧ (∀ f ∈ fs, f.wf = true) ∧ s.st = .idle ∧ EagerHost s ∧
      s.cmdIn = fs.map (·.cmd) ++ [] ∧ s.itemIn = fs.flatMap (·.items) ++ [] :=
  ⟨[⟨0x2000000A, [0x78, 0x4B, 0x23, 0x30, 0x40, 0x7A, 0x59, 0x22, 0x6D, 0x25]⟩, ⟨0x30000002, [0x61, 0x62]⟩,
      ⟨0x10000000, []⟩],
    hosting [0x2000000A, 0x30000002, 0x10000000]
      [0x78, 0x4B, 0x23, 0x30, 0x40, 0x7A, 0x59, 0x22, 0x6D, 0x25, 0x61, 0x62], by decide⟩

/-- The frames of P3, and a step count before the end. -/
theorem witness_ProgramRunEndsAfterItsFrames :
    (∃ s : State, (∀ f ∈ [failingFrame, reservedFrame], f.wf = true) ∧ s.st = .idle ∧ EagerHost s ∧
        s.cmdIn = [failingFrame, reservedFrame].map (·.cmd) ++ [] ∧
        s.itemIn = [failingFrame, reservedFrame].flatMap (·.items) ++ []) ∧
      0 < ([failingFrame, reservedFrame].map frameTransfers).sum ∧
      (HostRun.start State.reset).advanceBy 0 = .next (HostRun.start State.reset) :=
  ⟨⟨offerFrames [failingFrame, reservedFrame] State.reset, by decide⟩, by decide +kernel, rfl⟩

theorem inv_respondingRun : HostRunInvariant respondingRun :=
  ⟨inv_responding, by decide, fun _ h => by cases h; decide, fun _ h => by cases h; decide, by decide⟩

/-- Each ground for a run not to have ended, and the step that ends one. -/
theorem witness_RunEndsWithItsLastResponse :
    HostRunInvariant respondingRun ∧ respondingRun.core.st ≠ .idle ∧ respondingRun.done.length < [failingFrame].length ∧
      respondingRun.core.rst = false ∧ ¬ RunEnded [failingFrame] respondingRun ∧
      respondingRun.advance = .next respondedRun ∧ RunEnded [failingFrame] respondedRun :=
  ⟨inv_respondingRun, by decide, by decide, rfl, test_run_ends.2.2, next_of_nextOf test_run_ends.1, test_run_ends.2.1⟩

theorem witness_HostRunInvariantIsKept :
    HostRunInvariant respondingRun ∧ respondingRun.advance = .next respondedRun :=
  ⟨inv_respondingRun, next_of_nextOf test_run_ends.1⟩

theorem witness_ResetAbandonsTheOpenFrame :
    let r : HostRun := { respondingRun with core := { responding with rst := true } }
    r.core.rst = true ∧ r.opened = some failingFrame ∧ r.done ≠ [failingFrame] := by decide

theorem witness_EncodedLength : (List.replicate (2 ^ 28 - 1) (0x00 : Byte)).length = 2 ^ 28 - 1 :=
  List.length_replicate

theorem witness_EncIsCompositional : ([0x68, 0x65, 0x6C, 0x6C] : List Byte).length % 4 = 0 := by decide

theorem witness_EncodedItemsAreAlphabetCodes :
    (0x30 : Byte) ∈ enc [0x00] ∧ 1 ≤ ([0x00] : List Byte).length ∧ ([0, 0, 0, 0] : List Byte).length ≤ 4 := by decide

theorem witness_ShortGroupEncodesAsALeadingPart :
    1 ≤ ([0x6F] : List Byte).length ∧ ([0x6F, 0x20, 0x77] : List Byte).length ≤ 3 := by decide

/-- A group at each side of 2^32, and groups of 2 and of 4. -/
theorem witness_CanonicalGroupsCharacterised :
    (∀ g ∈ ([[0x3B, 0x6E, 0x53, 0x63, 0x30], [0x3B, 0x6E, 0x53, 0x63, 0x31]] : List (List Byte)),
      g.length = 5 ∧ ∀ c ∈ g, isSymbol c = true) ∧
      2 ≤ ([0x30, 0x40] : List Byte).length ∧ ([0x30, 0x30, 0x30, 0x30] : List Byte).length ≤ 4 := by decide

/-- A frame for each clause: lengths 1 and 6, an invalid item behind a whole group, and none. -/
theorem witness_WhichErrorADecodeReports :
    ([0x22] : List Byte).length % 5 = 1 ∧
      (let a : List Byte := [0x76, 0x72, 0x6B, 0x3B, 0x2C, 0x61]
       (a ++ 0x22 :: [0x22]).length % 5 ≠ 1 ∧ (∀ y ∈ a, isSymbol y = true) ∧ isSymbol 0x22 = false) ∧
      ([0x40, 0x40] : List Byte).length % 5 ≠ 1 ∧ ∀ y ∈ ([0x40, 0x40] : List Byte), isSymbol y = true := by decide

theorem witness_DecodedLength :
    ([0x40, 0x40] : List Byte).length % 5 ≠ 1 ∧ (dec [0x40, 0x40]).status = 0 := by decide

theorem witness_DecIsCompositional :
    let a : List Byte := [0x76, 0x72, 0x6B, 0x3B, 0x2C]
    let b : List Byte := [0x40, 0x40]
    a.length % 5 = 0 ∧ (∀ c ∈ a, isSymbol c = true) ∧ (∀ c ∈ b, isSymbol c = true) ∧ b.length % 5 ≠ 1 := by decide

theorem witness_NonCanonicalGroupsDecode :
    ∀ g ∈ ([[0x30, 0x23], [0x23, 0x23, 0x23, 0x23, 0x23]] : List (List Byte)),
      2 ≤ g.length ∧ g.length ≤ 5 ∧ ∀ c ∈ g, isSymbol c = true := by decide

theorem witness_LastSymbolOfAGroupIsStable : isSymbol 0x63 = true ∧ symbolValue 0x63 = 12 := by decide

theorem witness_PseudoCommandsAssembleToOneFrame :
    ([0x61, 0xFF] : List Nat).length < 2 ^ 28 ∧ (∀ n ∈ ([0x61, 0xFF] : List Nat), n < 2 ^ 8) ∧
      ∀ n ∈ ([0x22, 0x7F] : List Nat), n < 0x80 := by decide

theorem witness_DecodeAndEncodeAgree : (Instr.encode 0xFFFFFFF).wf = true := rfl

theorem witness_RomsAreInverse : (84 : Nat) < 85 ∧ isSymbol 0x23 = true := by decide

end Sys2Proof.Tests
end

section
/-! PROOFS. The family 10_state: what the decoder reads of a word's fields, what each transfer does to OP, REM and the
input channel (R24, R25), and the flags as conditions on the registers (R33). -/

namespace Sys2Proof

/-- The dispatch on OP loses none of its 16 values (30_encoding R71, R73). -/
@[simp] theorem opOf_decodeWord (w : CmdWord) : opOf (decodeWord w) = opField w := by
  unfold decodeWord
  generalize opField w = op
  fin_cases op <;> rfl

@[simp] theorem lenOf_decodeWord (w : CmdWord) : lenOf (decodeWord w) = lenField w := by
  unfold decodeWord
  split <;> rfl

namespace Machine

variable {s t : State}

/-! The flags (10_state R33) -/

@[simp] theorem cmdReady_iff : cmdReady s = true ↔ s.st = .idle := by simp [cmdReady]

@[simp] theorem rspValid_iff : rspValid s = true ↔ s.st = .resp := by simp [rspValid]

theorem inReady_iff :
    inReady s = true ↔
      ((s.st = .enc ∨ s.st = .dec) ∧ s.olen = 0 ∧ 0 < s.rem.toNat) ∨ (s.st = .drain ∧ 0 < s.rem.toNat) := by
  have hrem : 0 < s.rem.toNat ↔ ¬ s.rem = 0#28 := by bv_omega
  simp [inReady, hrem, and_assoc]

theorem outValid_iff :
    outValid s = true ↔ (s.st = .enc ∨ s.st = .dec) ∧ s.oidx.toNat < s.olen.toNat := by
  simp [outValid]

theorem outData_of_lt (h : s.oidx.toNat < 5) : outData s = some s.obuf[s.oidx.toNat] :=
  Vector.getElem?_eq_getElem h

/-! What a transfer does to OP, REM and the input channel (10_state R24, R25) -/

/-- Packed or converted, the byte is counted here; `fire` has already taken it from the channel. -/
theorem encodeItem_counts {x : Byte} (h : encodeItem x s = .next t) :
    t.op = s.op ∧ t.rem = s.rem - 1 ∧ t.itemIn = s.itemIn := by
  obtain ⟨-, ⟨-, -, rfl⟩ | ⟨-, rfl⟩⟩ := encodeItem_cases h <;> simp

/-- The failing item is counted like a symbol (42_decode R167). -/
theorem decodeItem_counts {x : Byte} (h : decodeItem x s = .next t) :
    t.op = s.op ∧ t.rem = s.rem - 1 ∧ t.itemIn = s.itemIn := by
  obtain ⟨-, rfl⟩ | ⟨-, -, ⟨-, -, -, rfl⟩ | ⟨-, -, rfl⟩⟩ := decodeItem_cases h <;> simp

theorem outXfer_takes_no_item (h : outXfer s = .next t) :
    t.op = s.op ∧ t.rem = s.rem ∧ t.itemIn = s.itemIn := by
  obtain ⟨-, -, ⟨-, rfl⟩ | ⟨-, rfl⟩⟩ := outXfer_cases h <;> simp

theorem exec_decodeWord_loads_fields {w : CmdWord} (h : exec (decodeWord w) (popCommand s) = .next t) :
    t.op = opField w ∧ t.rem = lenField w ∧ t.itemIn = s.itemIn := by
  obtain ⟨-, hop, hrem, -, -, -, -, -, -, -, -, hitem, -⟩ := exec_next h
  simp [hop, hrem, hitem]

/-- `REM − 1` does not wrap where in_ready is up. -/
theorem toNat_sub_one_add_one {r : FrameLen} (h : r ≠ 0) : (r - 1).toNat + 1 = r.toNat := by
  bv_omega

/-- An item step that answers REM − 1 and the rest of the channel took exactly one item (10_state R25). -/
theorem item_taken_of_counts {x : Byte} {xs : List Byte} (hrem : s.rem ≠ 0) (hin : s.itemIn = x :: xs)
    (h : t.op = s.op ∧ t.rem = s.rem - 1 ∧ t.itemIn = s.itemIn.tail) :
    t.op = s.op ∧ (∃ x, s.itemIn = x :: t.itemIn) ∧ t.rem.toNat + 1 = s.rem.toNat := by
  obtain ⟨hop, hpred, htail⟩ := h
  exact ⟨hop, ⟨x, by simp [htail, hin]⟩, by rw [hpred, toNat_sub_one_add_one hrem]⟩

end Machine

end Sys2Proof

open Sys2Proof Sys2Proof.Machine

/-- Settles O33: each transfer of `step_cases` is a command, an item counted, or a step that takes no item. -/
theorem opAndRemAreWrittenByCommandsAndItemsOnly : Obligations.OpAndRemAreWrittenByCommandsAndItemsOnly := by
  intro s t hrst hstep
  obtain ⟨hr, -⟩ | ⟨-, hcmd | henc | hdec | hdrain | hout | hresp⟩ := step_cases hstep
  · simp [hrst] at hr
  · obtain ⟨hidle, w, ws, hin, hexec⟩ := hcmd
    obtain ⟨hop, hrem, hitem⟩ := exec_decodeWord_loads_fields hexec
    exact .inl ⟨hidle, w, ws, hin, hop, hrem, hitem⟩
  · obtain ⟨hst, -, hrem, x, xs, hin, hitem⟩ := henc
    exact .inr (.inl ⟨by simp [hst], item_taken_of_counts hrem hin (encodeItem_counts hitem)⟩)
  · obtain ⟨hst, -, hrem, x, xs, hin, hitem⟩ := hdec
    exact .inr (.inl ⟨by simp [hst], item_taken_of_counts hrem hin (decodeItem_counts hitem)⟩)
  · obtain ⟨hst, hrem, x, xs, hin, rfl⟩ := hdrain
    exact .inr (.inl ⟨by simp [hst], item_taken_of_counts hrem hin ⟨rfl, rfl, rfl⟩⟩)
  · obtain ⟨hst, -, -, hxfer⟩ := hout
    obtain ⟨hop, hrem, hitem⟩ := outXfer_takes_no_item hxfer
    have hbusy : s.st ≠ .idle := by obtain h | h := hst <;> simp [h]
    exact .inr (.inr ⟨hbusy, hop, hitem, hrem⟩)
  · obtain ⟨hst, -, rfl⟩ := hresp
    exact .inr (.inr ⟨by simp [hst], rfl, rfl, rfl⟩)

/-- Settles O24: each flag is the condition its lemma gives, the buses are read off the registers, and the reset
state is evaluated. -/
theorem flagsFollowTheRegisters : Obligations.FlagsFollowTheRegisters :=
  ⟨fun _ => ⟨cmdReady_iff, inReady_iff, outValid_iff, outData_of_lt, rspValid_iff, rfl⟩, by decide⟩
end

section
/-! PROOFS. The family 20_memory: the two ROMs agree on every code, with the valid bit as the case split (R53). -/

namespace Sys2Proof.Machine

/-! Each `decide` here compares the two tables entry by entry, over the 256 codes or the 85 characters. -/

/-- The value VAL_ROM gives a valid code is that code's place in SYM_ROM (20_memory R53). -/
theorem symRom_symbolValue_of_isSymbol {c : Byte} (h : isSymbol c = true) : symRom[symbolValue c]? = some c := by
  revert c; decide +kernel

theorem valLut_eq_zero_of_not_isSymbol {c : Byte} (h : isSymbol c = false) : valLut c = 0 := by
  revert c; decide +kernel

theorem isSymbol_of_mem_symRom {c : Byte} (h : c ∈ symRom) : isSymbol c = true := by
  revert c; decide +kernel

/-- The valid bit marks exactly the alphabet codes (20_memory R53). -/
theorem isSymbol_iff_mem_symRom {c : Byte} : isSymbol c = true ↔ c ∈ symRom :=
  ⟨fun h => List.mem_of_getElem? (symRom_symbolValue_of_isSymbol h), isSymbol_of_mem_symRom⟩

end Sys2Proof.Machine

open Sys2Proof Sys2Proof.Machine

/-- Settles O6, by the valid bit: a valid code is the character of its own value, and a code without the bit is no
character and has the entry 0x00. -/
theorem valueRomHoldsTheAlphabetValues : Obligations.ValueRomHoldsTheAlphabetValues := by
  intro c
  cases hvalid : isSymbol c with
  | true =>
    exact .inl ⟨symbolValue c, symbolValue_lt c, symRom_symbolValue_of_isSymbol hvalid, hvalid, rfl⟩
  | false =>
    have hmem : c ∉ symRom := by simp [← isSymbol_iff_mem_symRom, hvalid]
    have hentry : valLut c = 0 := valLut_eq_zero_of_not_isSymbol hvalid
    exact .inr ⟨hmem, hvalid, by simp [hentry]⟩
end

section
/-! PROOFS. The family 30_encoding: the fields of the response word and its value (R75), by its concatenation
`{STATUS, 0b0000, INFO, 0x0000, OCNT}`, in which a field begins at the sum of the widths behind it. -/

namespace Sys2Proof

/-- `{a, b}` has `a` in the more significant position (00_scope R10), here at every pair of widths. -/
theorem append_toNat {v w : Nat} (a : BitVec v) (b : BitVec w) : (a ++ b).toNat = a.toNat * 2 ^ w + b.toNat := by
  rw [BitVec.toNat_append, ← Nat.shiftLeft_add_eq_or_of_lt b.isLt, Nat.shiftLeft_eq]

namespace Machine

variable (status : StatusCode) (info : Byte) (ocnt : BitVec 32)

/-- The word at a width that is written as the sum of its fields' widths: the library's lemmas about `++` do not match
one written at the width 64. Its fields are then found by passing over those behind them. -/
theorem rspWord_extractLsb' (start len : Nat) :
    (rspWord status info ocnt).extractLsb' start len =
      (status ++ 0#4 ++ info ++ 0#16 ++ ocnt).extractLsb' start len := rfl

@[simp] theorem rspStatus_rspWord : rspStatus (rspWord status info ocnt) = status := by
  rw [rspStatus, rspWord_extractLsb', BitVec.extractLsb'_append_eq_of_le (by decide),
    BitVec.extractLsb'_append_eq_of_le (by decide), BitVec.extractLsb'_append_eq_of_le (by decide)]
  exact BitVec.extractLsb'_append_eq_left

@[simp] theorem rspInfo_rspWord : rspInfo (rspWord status info ocnt) = info := by
  rw [rspInfo, rspWord_extractLsb', BitVec.extractLsb'_append_eq_of_le (by decide),
    BitVec.extractLsb'_append_eq_of_le (by decide)]
  exact BitVec.extractLsb'_append_eq_right

@[simp] theorem rspCount_rspWord : rspCount (rspWord status info ocnt) = ocnt :=
  BitVec.extractLsb'_append_eq_right

theorem rspWord_reserved_high : (rspWord status info ocnt).extractLsb' 56 4 = 0 := by
  rw [rspWord_extractLsb', BitVec.extractLsb'_append_eq_of_le (by decide),
    BitVec.extractLsb'_append_eq_of_le (by decide), BitVec.extractLsb'_append_eq_of_le (by decide)]
  exact BitVec.extractLsb'_append_eq_right

theorem rspWord_reserved_low : (rspWord status info ocnt).extractLsb' 32 16 = 0 := by
  rw [rspWord_extractLsb', BitVec.extractLsb'_append_eq_of_le (by decide)]
  exact BitVec.extractLsb'_append_eq_right

/-- The reserved fields count for their widths only: 60 = 4 + 8 + 16 + 32 and 48 = 16 + 32. -/
theorem rspWord_toNat :
    (rspWord status info ocnt).toNat = status.toNat * 2 ^ 60 + info.toNat * 2 ^ 48 + ocnt.toNat := by
  have hword : (rspWord status info ocnt).toNat = (status ++ 0#4 ++ info ++ 0#16 ++ ocnt).toNat := rfl
  simp only [hword, append_toNat, BitVec.toNat_ofNat]
  omega

end Machine

end Sys2Proof

open Sys2Proof Sys2Proof.Machine

/-- Settles O4: rsp_data is the response word of STATUS, INFO and OCNT, whose fields, reserved bits and value are
read off its concatenation. -/
theorem responseWordLayout : Obligations.ResponseWordLayout := fun _ =>
  ⟨rspStatus_rspWord _ _ _, rspWord_reserved_high _ _ _, rspInfo_rspWord _ _ _, rspWord_reserved_low _ _ _,
    rspCount_rspWord _ _ _, rspWord_toNat _ _ _⟩
end

section
/-! PROOFS. The family 40_frame_control: each transfer as an equation for `step` under its enabling condition (R100),
and what each leaves as the whole next state (R101, R104, R106, R107). -/

namespace Sys2Proof.Machine

variable {s : State}

/-! The enabled transfer's step (40_frame_control R100) -/

theorem step_eq_exec {w : CmdWord} {ws : List CmdWord} (hrst : s.rst = false) (hst : s.st = .idle)
    (hin : s.cmdIn = w :: ws) : step s = exec (decodeWord w) (popCommand s) := by
  simp [step, enabledTransfer, fire, hrst, hst, hin]

theorem step_eq_inXfer {x : Byte} {xs : List Byte} (hrst : s.rst = false) (hready : inReady s = true)
    (hin : s.itemIn = x :: xs) : step s = inXfer x (popItem s) := by
  have hbusy : s.st ≠ .idle := by obtain ⟨h | h | h, -⟩ := inReady_open hready <;> simp [h]
  simp [step, enabledTransfer, fire, hrst, hbusy, hready, hin]

/-- Output pending means OLEN is not 0, so no item is awaited. -/
theorem inReady_of_outValid (hvalid : outValid s = true) : inReady s = false := by
  obtain ⟨hst, hlt⟩ := outValid_iff.1 hvalid
  have holen : s.olen ≠ 0 := by bv_omega
  have hdrain : s.st ≠ .drain := by obtain h | h := hst <;> simp [h]
  rw [← Bool.not_eq_true, inReady_iff]
  rintro (⟨-, hzero, -⟩ | ⟨hdrained, -⟩)
  · exact holen hzero
  · exact hdrain hdrained

theorem step_eq_outXfer (hrst : s.rst = false) (hvalid : outValid s = true) (hready : s.outReady = true) :
    step s = outXfer s := by
  have hbusy : s.st ≠ .idle := by obtain h | h := outValid_open hvalid <;> simp [h]
  simp [step, enabledTransfer, fire, hrst, hbusy, inReady_of_outValid hvalid, hvalid, hready]

/-- Within the bounds of OBUF and OCNT the item is delivered, whatever ST is. -/
theorem outXfer_eq_next (hidx : s.oidx.toNat < 5) (hcnt : s.ocnt.toNat + 1 < 2 ^ 32) :
    outXfer s = .next (
      if s.oidx.toNat + 1 = s.olen.toNat then closeOutput (give s.obuf[s.oidx.toNat] s)
      else nextOutput (give s.obuf[s.oidx.toNat] s)) := by
  rw [outXfer, dif_pos ⟨hidx, hcnt⟩]
  split <;> rfl

theorem step_eq_rspXfer (hrst : s.rst = false) (hst : s.st = .resp) (hready : s.rspReady = true) :
    step s = rspXfer s := by
  simp [step, enabledTransfer, fire, inReady, outValid, hrst, hst, hready]

theorem popCommand_of_cons {w : CmdWord} {ws : List CmdWord} (hin : s.cmdIn = w :: ws) :
    popCommand s = { s with cmdIn := ws } := by
  simp [popCommand, hin]

theorem popItem_of_cons {x : Byte} {xs : List Byte} (hin : s.itemIn = x :: xs) :
    popItem s = { s with itemIn := xs } := by
  simp [popItem, hin]

/-! The command that OP selects (30_encoding R73), and its acceptance -/

theorem decodeWord_of_encode {w : CmdWord} (h : opField w = 0x1) : decodeWord w = .encode (lenField w) := by
  simp [decodeWord, h]

theorem decodeWord_of_decode {w : CmdWord} (h : opField w = 0x2) : decodeWord w = .decode (lenField w) := by
  simp [decodeWord, h]

theorem decodeAcceptance_of_lengthError {len : FrameLen} (h : len.toNat % 5 = 1) :
    decodeAcceptance len s = errorEntry codeInvalidLength 0x00 len s := if_pos h

theorem decodeAcceptance_of_not_lengthError {len : FrameLen} (h : len.toNat % 5 ≠ 1) :
    decodeAcceptance len s = startFrame .dec len s := if_neg h

/-- The 14 reserved operations differ in nothing but their OP (40_frame_control R110). -/
theorem exec_of_reserved {i : Instr} (hencode : opOf i ≠ 0x1) (hdecode : opOf i ≠ 0x2) :
    exec i s = rejectCommand (opOf i) (lenOf i) s := by
  cases i with
  | encode len => exact absurd rfl hencode
  | decode len => exact absurd rfl hdecode
  | _ len => rfl

end Sys2Proof.Machine

open Sys2Proof Sys2Proof.Machine

/-- Settles O14, by OP: ENCODE starts its frame, DECODE starts it or enters the length error, and any other OP enters
the rejection. -/
theorem everyWordIsAcceptedInIdle : Obligations.EveryWordIsAcceptedInIdle := by
  intro s w ws hrst hst hin op len lengthError reserved
  rw [step_eq_exec hrst hst hin, popCommand_of_cons hin]
  by_cases hencode : op = 0x1
  · have hcmd : decodeWord w = .encode len := decodeWord_of_encode hencode
    rw [hcmd]
    refine acceptCommand_next.2 ⟨hst, ?_⟩
    simp only [reserved, lengthError, hencode]
    rfl
  by_cases hdecode : op = 0x2
  · have hcmd : decodeWord w = .decode len := decodeWord_of_decode hdecode
    rw [hcmd]
    refine acceptCommand_next.2 ⟨hst, ?_⟩
    by_cases hlength : len.toNat % 5 = 1
    · have herror : lengthError = true := by simpa [lengthError, hdecode] using hlength
      rw [decodeAcceptance_of_lengthError hlength]
      simp only [reserved, herror, hdecode]
      rfl
    · have herror : lengthError = false := by simpa [lengthError, hdecode] using hlength
      rw [decodeAcceptance_of_not_lengthError hlength]
      simp only [reserved, herror, hdecode]
      rfl
  · have hop : opOf (decodeWord w) = op := opOf_decodeWord w
    have hreserved : reserved = true := by simpa [reserved] using ⟨hencode, hdecode⟩
    rw [exec_of_reserved (hop ▸ hencode) (hop ▸ hdecode), hop, lenOf_decodeWord]
    refine rejectCommand_next.2 ⟨hst, ?_⟩
    simp only [hreserved]
    rfl

/-- Settles O19: in DRAIN the item is popped and counted off, whatever it is. -/
theorem drainDiscardsAnItem : Obligations.DrainDiscardsAnItem := by
  intro s x xs hrst hst hrem hin
  have hready : inReady s = true := inReady_iff.2 (.inr ⟨hst, by bv_omega⟩)
  rw [step_eq_inXfer hrst hready hin, popItem_of_cons hin]
  simp [inXfer, drainItem, discardItem, hst]

/-- Settles O20, by whether the item is the group's last: `closeOutput` after it, `nextOutput` before it. -/
theorem outputDeliversAnItem : Obligations.OutputDeliversAnItem := by
  intro s hrst hst hready hlt hidx hcnt
  rw [step_eq_outXfer hrst (outValid_iff.2 ⟨hst, hlt⟩) hready, outXfer_eq_next hidx hcnt]
  split <;> rfl

/-- Settles O21: the word delivered is rsp_data, whose value is that of its fields (30_encoding R75). -/
theorem responseReturnsToIdle : Obligations.ResponseReturnsToIdle := by
  intro s hrst hst hready
  exact ⟨rspData s, rspWord_toNat _ _ _, step_eq_rspXfer hrst hst hready⟩
end

section
/-! PROOFS. The family 41_encode: the length of Enc (R142), the digits of a value as its base-85 representation (R134),
and the encoder's input step as an equation within the bounds of 10_state R37 item 4 (R131, R133). -/

namespace Sys2Proof.Machine

/-! Enc, group by group (41_encode R141, R142) -/

theorem encGroup_length {g : List Byte} (h : g.length ≤ 4) : (encGroup g).length = g.length + 1 := by
  rw [encGroup, groupSymbols_length, Nat.min_eq_left (by omega)]

theorem enc_of_full_group (a b c d : Byte) (rest : List Byte) :
    enc (a :: b :: c :: d :: rest) = encGroup [a, b, c, d] ++ enc rest := rfl

theorem enc_of_short_group {g : List Byte} (hpos : 1 ≤ g.length) (hshort : g.length < 4) : enc g = encGroup g := by
  match g with
  | [_] | [_, _] | [_, _, _] => rfl

theorem encLength_of_short {N : Nat} (hpos : 1 ≤ N) (hshort : N < 4) : encLength N = N + 1 := by
  simp only [encLength]
  split <;> omega

theorem encLength_add_four (N : Nat) : encLength (N + 4) = 5 + encLength N := by
  simp only [encLength, Nat.add_mod_right, Nat.add_div_right N (by decide : 0 < 4)]
  omega

@[simp] theorem enc_length (b : List Byte) : (enc b).length = encLength b.length := by
  induction b using enc.induct with
  | case1 a b c d rest ih =>
    have hgroup : (encGroup [a, b, c, d]).length = 5 := encGroup_length (by simp)
    rw [enc_of_full_group, List.length_append, hgroup, ih]
    exact (encLength_add_four rest.length).symm
  | case2 => rfl
  | case3 g hfull hnil =>
    have hpos : 1 ≤ g.length := List.length_pos_iff.2 hnil
    have hshort : g.length < 4 := by
      match g with
      | [_] | [_, _] | [_, _, _] => simp
      | a :: b :: c :: d :: rest => exact absurd rfl (hfull a b c d rest)
    rw [enc_of_short_group hpos hshort, encGroup_length (by omega), encLength_of_short hpos hshort]

/-! The digits of a value (41_encode R134). The library's `Nat.ofDigits` has the least significant digit first. -/

/-- The sum of R134, for any list of five digits. -/
theorem ofDigits_reverse_of_length_five {d : List Nat} (h : d.length = 5) :
    Nat.ofDigits 85 d.reverse =
      d.getD 0 0 * 85 ^ 4 + d.getD 1 0 * 85 ^ 3 + d.getD 2 0 * 85 ^ 2 + d.getD 3 0 * 85 + d.getD 4 0 := by
  match d with
  | [a, b, c, d, e] =>
    simp only [List.reverse_cons, List.reverse_nil, List.nil_append, List.cons_append, Nat.ofDigits_cons,
      Nat.ofDigits_nil, List.getD_cons_zero, List.getD_cons_succ]
    ring

/-- Five divisions by 85 leave nothing of a value below 2^32, which is below 85^5. -/
theorem ofDigits_digits85 {p : Nat} (hp : p < 2 ^ 32) : Nat.ofDigits 85 (digits85 p).reverse = p := by
  rw [ofDigits_reverse_of_length_five (digits85_length p), digits85_eq]
  simp only [List.getD_cons_zero, List.getD_cons_succ]
  omega

theorem digits85_head_le {p : Nat} (hp : p < 2 ^ 32) : (digits85 p).getD 0 0 ≤ 82 := by
  rw [digits85_eq, List.getD_cons_zero]
  omega

theorem eq_digits85_of_ofDigits {p : Nat} (hp : p < 2 ^ 32) {d : List Nat} (hlength : d.length = 5)
    (hdigit : ∀ x ∈ d, x < 85) (hvalue : Nat.ofDigits 85 d.reverse = p) : d = digits85 p := by
  refine List.reverse_injective (Nat.ofDigits_inj_of_len_eq (by decide : 1 < 85) (by simp [hlength]) ?_ ?_ ?_)
  · simpa using hdigit
  · simpa using digits85_lt p
  · rw [hvalue, ofDigits_digits85 hp]

/-! The encoder's input step (41_encode R131, R133) -/

variable {s : State}

/-- The target byte of ACC is 0 (10_state R37 item 4), so the byte is placed without a carry. -/
theorem packByte_lt_of_target_zero {acc gcnt : Nat} (x : Byte) (hgcnt : gcnt ≤ 3)
    (htarget : acc % 2 ^ (8 * (4 - gcnt)) = 0) : packByte acc gcnt x < 2 ^ 32 := by
  have hx : x.toNat < 2 ^ 8 := x.isLt
  simp only [packByte]
  interval_cases gcnt <;> omega

/-- A conversion's symbols in OBUF: entries 0 to n are new, those past them are kept (41_encode R133). -/
theorem overwriteObuf_groupSymbols (obuf : Vector Byte 5) (p n : Nat) :
    overwriteObuf obuf (groupSymbols p n) =
      Vector.ofFn fun i => if i.val ≤ n then symLut ((digits85 p).getD i.val 0) else obuf[i] := by
  ext i hi
  by_cases h : i ≤ n <;> simp [overwriteObuf, groupSymbols, h, hi]

theorem convertGroup_eq_next {p n : Nat} (hp : p < 2 ^ 32) (hn : 1 ≤ n) (hn' : n ≤ 4) :
    convertGroup p n s = .next (loadOutput (groupSymbols p n) s) :=
  convertGroup_next.2 ⟨⟨hp, hn, hn'⟩, rfl⟩

theorem encodeItem_eq_next {x : Byte} (hgcnt : s.gcnt.toNat ≤ 3)
    (hpack : packByte s.acc.toNat s.gcnt.toNat x < 2 ^ 32) :
    encodeItem x s = .next (
      if s.gcnt.toNat + 1 = 4 ∨ s.rem = 1 then
        loadOutput (groupSymbols (packByte s.acc.toNat s.gcnt.toNat x) (s.gcnt.toNat + 1)) (clearGroup (countItem s))
      else holdGroup (packByte s.acc.toNat s.gcnt.toNat x) (s.gcnt.toNat + 1) (countItem s)) := by
  simp only [encodeItem, if_pos hgcnt, convertGroup_eq_next hpack (Nat.le_add_left 1 _) (Nat.succ_le_succ hgcnt)]
  split <;> rfl

end Sys2Proof.Machine

open Sys2Proof Sys2Proof.Machine

/-- Settles O44: the length relation by recursion on the groups of four, evaluated for the largest frame. -/
theorem encodedLength : Obligations.EncodedLength :=
  ⟨enc_length, fun b hb => by rw [enc_length, hb]; rfl, by decide⟩

/-- Settles O27: the sum of R134 is `Nat.ofDigits` of the reversed list, which determines five digits below 85. -/
theorem digitsAreTheUniqueRepresentation : Obligations.DigitsAreTheUniqueRepresentation := by
  intro p hp value
  have hvalue {d : List Nat} (h : d.length = 5) : value d = Nat.ofDigits 85 d.reverse :=
    (ofDigits_reverse_of_length_five h).symm
  refine ⟨digits85_length p, digits85_lt p, ?_, digits85_head_le hp, fun d hlength hdigit hd => ?_⟩
  · rw [hvalue (digits85_length p), ofDigits_digits85 hp]
  · exact eq_digits85_of_ofDigits hp hlength hdigit (by rw [← hvalue hlength, hd])

/-- Settles O16, by whether the byte completes its group: the shape of ACC keeps the pack value below 2^32, so the
step is taken. -/
theorem encodeInputPacksOrConverts : Obligations.EncodeInputPacksOrConverts := by
  intro s x xs hrst hst holen hrem hin hshape p n
  obtain ⟨-, -, hgcnt, -, htarget, -⟩ := hshape hst
  have hready : inReady s = true := inReady_iff.2 (.inl ⟨.inl hst, holen, by bv_omega⟩)
  have hpack : p < 2 ^ 32 := packByte_lt_of_target_zero x hgcnt htarget
  have hinput : step s = encodeItem x { s with itemIn := xs } := by
    rw [step_eq_inXfer hrst hready hin, popItem_of_cons hin]
    simp only [inXfer, hst]
  rw [hinput, encodeItem_eq_next (s := { s with itemIn := xs }) hgcnt hpack]
  have hsymbols : n + 1 ≤ 5 := Nat.add_le_add_right hgcnt 2
  by_cases hlast : n = 4 ∨ s.rem = 1
  · rw [if_pos hlast, if_pos hlast, loadOutput, overwriteObuf_groupSymbols, groupSymbols_length,
      Nat.min_eq_left hsymbols]
    rfl
  · rw [if_neg hlast, if_neg hlast]
    rfl
end

section
/-! PROOFS. The family 42_decode: the decoder's input step as an equation, for a symbol within the bounds of 10_state
R37 items 5 and 6 (R161 to R164) and for a non-alphabet item (R167), and Dec on the groups of a frame (R170, R174). -/

namespace Sys2Proof.Machine

/-! The datapath of a symbol group (42_decode R161, R163) -/

theorem accumulate_lt {acc g : Nat} (x : Byte) (hacc : acc < 85 ^ g) : accumulate acc x < 85 ^ (g + 1) := by
  have hx : symbolValue x < 85 := symbolValue_lt x
  simp only [accumulate, Config.radix, Nat.pow_succ]
  omega

theorem padValue_eq (a L : Nat) : padValue a L = a * 85 ^ (5 - L) + (85 ^ (5 - L) - 1) := padRounds_eq _ _

/-- Byte i of the unpacker is digit i, to the base 2^8, of w = v mod 2^32 (42_decode R163). -/
theorem unpackBytes_getElem? {i : Nat} (v : Nat) (h : i < 4) :
    (unpackBytes v)[i]? = some (BitVec.ofNat 8 (v % 2 ^ 32 / 2 ^ (8 * (3 - i)))) := by
  have hbyte (start : Nat) :
      (BitVec.ofNat 32 v).extractLsb' start 8 = BitVec.ofNat 8 (v % 2 ^ 32 / 2 ^ start) := by
    rw [BitVec.extractLsb', BitVec.toNat_ofNat, Nat.shiftRight_eq_div_pow]
  simp only [unpackBytes, hbyte]
  interval_cases i <;> rfl

/-- A group's bytes in OBUF: entries 0 to L − 2 are new, those past them are kept (42_decode R163, R164). -/
theorem overwriteObuf_groupBytes (obuf : Vector Byte 5) (a : Nat) {L : Nat} (hL : L ≤ 5) :
    overwriteObuf obuf (groupBytes a L) = Vector.ofFn fun i =>
      if i.val < L - 1 then BitVec.ofNat 8 (padValue a L % 2 ^ 32 / 2 ^ (8 * (3 - i.val))) else obuf[i] := by
  ext i hi
  by_cases h : i < L - 1
  · have hbyte := unpackBytes_getElem? (padValue a L) (i := i) (by omega)
    simp [overwriteObuf, groupBytes, h, hbyte]
  · simp [overwriteObuf, groupBytes, h]

/-! The decoder's input step (42_decode R161, R163, R167) -/

variable {s : State}

theorem step_eq_decodeItem {x : Byte} {xs : List Byte} (hrst : s.rst = false) (hst : s.st = .dec)
    (holen : s.olen = 0) (hrem : s.rem ≠ 0) (hin : s.itemIn = x :: xs) :
    step s = decodeItem x { s with itemIn := xs } := by
  have hready : inReady s = true := inReady_iff.2 (.inl ⟨.inr hst, holen, by bv_omega⟩)
  rw [step_eq_inXfer hrst hready hin, popItem_of_cons hin]
  simp only [inXfer, hst]

theorem decodeItem_of_not_isSymbol {x : Byte} (h : isSymbol x = false) :
    decodeItem x s = .next (errorEntry codeInvalidSymbol x (s.rem - 1) (countItem s)) := if_pos h

theorem completeGroup_eq_next {a L : Nat} (ha : a < 85 ^ L) (hL : 2 ≤ L) (hL' : L ≤ 5) :
    completeGroup a L s = .next (loadOutput (groupBytes a L) s) :=
  completeGroup_next.2 ⟨⟨ha, hL, hL'⟩, rfl⟩

/-- The frame's last symbol never begins a group (10_state R37 item 6), so a completed group has two symbols at the
least; an open one has at most four, whose value fits ACC. -/
theorem decodeItem_of_isSymbol {x : Byte} (hx : isSymbol x = true) (hgcnt : s.gcnt.toNat ≤ 4)
    (hacc : s.acc.toNat < 85 ^ s.gcnt.toNat) (hlone : (s.rem.toNat + s.gcnt.toNat) % 5 ≠ 1) :
    decodeItem x s = .next (
      if s.gcnt.toNat + 1 = 5 ∨ s.rem = 1 then
        loadOutput (groupBytes (accumulate s.acc.toNat x) (s.gcnt.toNat + 1)) (clearGroup (countItem s))
      else holdGroup (accumulate s.acc.toNat x) (s.gcnt.toNat + 1) (countItem s)) := by
  have ha : accumulate s.acc.toNat x < 85 ^ (s.gcnt.toNat + 1) := accumulate_lt x hacc
  simp only [decodeItem, hx, Bool.true_eq_false, if_false, if_pos hgcnt]
  by_cases hlast : s.gcnt.toNat + 1 = 5 ∨ s.rem = 1
  · have hL : 2 ≤ s.gcnt.toNat + 1 := by
      obtain h | h := hlast
      · omega
      · have hone : s.rem.toNat = 1 := by simp [h]
        omega
    rw [if_pos hlast, if_pos hlast, completeGroup_eq_next ha hL (by omega)]
  · have hfits : accumulate s.acc.toNat x < 2 ^ 33 :=
      calc accumulate s.acc.toNat x < 85 ^ (s.gcnt.toNat + 1) := ha
        _ ≤ 85 ^ 4 := Nat.pow_le_pow_right (by decide) (by omega)
        _ < 2 ^ 33 := by decide
    rw [if_neg hlast, if_neg hlast, if_pos hfits]

/-! Dec, group by group (42_decode R170) -/

theorem decGroup_length {g : List Byte} (h : g.length ≤ 5) : (decGroup g).length = g.length - 1 := by
  rw [decGroup, List.length_take, unpackBytes_length, Nat.min_eq_left (by omega)]

theorem find?_not_isSymbol_eq_none {g : List Byte} (h : ∀ c ∈ g, isSymbol c = true) :
    g.find? (fun x => !isSymbol x) = none := by
  simpa using h

theorem decLoop_of_full_group (out rest : List Byte) {a b c d e : Byte}
    (h : ∀ x ∈ [a, b, c, d, e], isSymbol x = true) :
    decLoop out (a :: b :: c :: d :: e :: rest) = decLoop (out ++ decGroup [a, b, c, d, e]) rest := by
  rw [decLoop, find?_not_isSymbol_eq_none h]

theorem decLoop_of_short_group (out : List Byte) {g : List Byte} (hpos : 1 ≤ g.length) (hshort : g.length < 5)
    (h : ∀ c ∈ g, isSymbol c = true) : decLoop out g = ⟨codeOk, 0x00, out ++ decGroup g⟩ := by
  have hfind := find?_not_isSymbol_eq_none h
  match g with
  | [_] | [_, _] | [_, _, _] | [_, _, _, _] => simp only [decLoop, hfind]

/-- A frame of one group that has the length R174 asks for. -/
theorem dec_of_group {g : List Byte} (hmin : 2 ≤ g.length) (hmax : g.length ≤ 5)
    (h : ∀ c ∈ g, isSymbol c = true) : dec g = ⟨codeOk, 0x00, decGroup g⟩ := by
  rw [dec, if_neg (by omega)]
  by_cases hshort : g.length < 5
  · exact decLoop_of_short_group [] (by omega) hshort h
  · have hfull : g.length = 5 := by omega
    match g with
    | [_, _, _, _, _] => exact decLoop_of_full_group [] [] h

end Sys2Proof.Machine

open Sys2Proof Sys2Proof.Machine

/-- Settles O17, by whether the symbol completes its group: the shape of ACC and GCNT makes the step be taken, and the
pad loop has its closed form. -/
theorem decodeInputAccumulatesOrCompletes : Obligations.DecodeInputAccumulatesOrCompletes := by
  intro s x xs hrst hst holen hrem hin hshape hlone hx a L v
  obtain ⟨-, -, hgcnt, hacc, -⟩ := hshape hst
  rw [step_eq_decodeItem hrst hst holen hrem hin,
    decodeItem_of_isSymbol (s := { s with itemIn := xs }) hx hgcnt hacc (hlone hst)]
  have hL : L ≤ 5 := Nat.succ_le_succ hgcnt
  by_cases hlast : L = 5 ∨ s.rem = 1
  · rw [if_pos hlast, if_pos hlast, loadOutput, overwriteObuf_groupBytes _ _ hL, groupBytes_length,
      Nat.min_eq_left (Nat.sub_le_sub_right hL 1), padValue_eq]
    rfl
  · rw [if_neg hlast, if_neg hlast]
    rfl

/-- Settles O53: a group within one frame decodes to `decGroup`, which gives one byte less than its symbols; the
examples of R174 are evaluated. -/
theorem nonCanonicalGroupsDecode : Obligations.NonCanonicalGroupsDecode := by
  refine ⟨fun g hmin hmax h => ?_, by decide⟩
  rw [dec_of_group hmin hmax h]
  exact ⟨rfl, decGroup_length hmax⟩

/-- Settles O18: the step is the error entry, whose count of items left is 0 exactly for the frame's last item. -/
theorem invalidSymbolFailsTheFrame : Obligations.InvalidSymbolFailsTheFrame := by
  intro s x xs hrst hst holen hrem hin hx
  have hleft : s.rem - 1 = 0 ↔ s.rem = 1 := sub_eq_zero
  rw [step_eq_decodeItem hrst hst holen hrem hin, decodeItem_of_not_isSymbol hx]
  simp only [errorEntry, hleft]
  rfl
end

section
/-! PROOFS. The family 60_exceptions: the one step of a failed frame in DRAIN and in RESP (R208), and the run that
drains the frame's items and delivers its response (R203, R207, R210). -/

namespace Sys2Proof.Machine

variable {s t : State}

/-! A failed frame's step (60_exceptions R208) -/

theorem eq_discardItem_of_step_drain (hrst : s.rst = false) (hst : s.st = .drain) (hstep : step s = .next t) :
    t = discardItem (popItem s) := by
  obtain ⟨-, -, -, -, ht⟩ : s.rem ≠ 0 ∧ ∃ x xs, s.itemIn = x :: xs ∧ t = discardItem (popItem s) := by
    simpa [hrst, hst] using step_cases hstep
  exact ht

theorem eq_deliverResponse_of_step_resp (hrst : s.rst = false) (hst : s.st = .resp) (hstep : step s = .next t) :
    t = deliverResponse s := by
  obtain ⟨-, ht⟩ : s.rspReady = true ∧ t = deliverResponse s := by
    simpa [hrst, hst] using step_cases hstep
  exact ht

/-! From the error entry to the response (60_exceptions R207, R210) -/

theorem run_succ_of_step {n : Nat} (hstep : step s = .next t) : run (n + 1) s = run n t := by
  rw [run, hstep]

theorem step_eq_rejection {w : CmdWord} {ws : List CmdWord} (hrst : s.rst = false) (hst : s.st = .idle)
    (hin : s.cmdIn = w :: ws) (hencode : opField w ≠ 0x1) (hdecode : opField w ≠ 0x2) :
    step s = .next (errorEntry codeIllegalCommand ((opField w).zeroExtend 8) (lenField w)
      (openFrame (opField w) (lenField w) (popCommand s))) := by
  have hop : opOf (decodeWord w) = opField w := opOf_decodeWord w
  rw [step_eq_exec hrst hst hin, exec_of_reserved (hop ▸ hencode) (hop ▸ hdecode), hop, lenOf_decodeWord]
  exact rejectCommand_next.2 ⟨hst, rfl⟩

/-- ST as the error entry sets it and each drained item leaves it: DRAIN while items are left, then RESP. The frame's
items go one a step, and the response after them is that of the registers as the error left them. -/
theorem run_failed_frame {x xs : List Byte} (hrst : s.rst = false) (hready : s.rspReady = true)
    (hst : s.st = if s.rem = 0 then .resp else .drain) (hlen : x.length = s.rem.toNat) (hin : s.itemIn = x ++ xs) :
    run (x.length + 1) s =
      .next { s with st := .idle, rem := 0, itemIn := xs, rspOut := s.rspOut ++ [rspData s] } := by
  induction x generalizing s with
  | nil =>
    have hrem : s.rem = 0 := BitVec.eq_of_toNat_eq hlen.symm
    have hstep : step s = .next (deliverResponse s) := step_eq_rspXfer hrst (by rw [hst, if_pos hrem]) hready
    have hitems : xs = s.itemIn := hin.symm
    rw [List.length_nil, run_succ_of_step hstep, run, deliverResponse, hitems, ← hrem]
  | cons a x ih =>
    have hpos : s.rem ≠ 0 := by
      intro hzero
      simp [hzero] at hlen
    have hleft : s.rem = 1 ↔ s.rem - 1 = 0 := sub_eq_zero.symm
    have hstep := drainDiscardsAnItem s a (x ++ xs) hrst (by rw [hst, if_neg hpos]) hpos hin
    rw [List.length_cons, run_succ_of_step hstep]
    refine ih hrst hready ?_ ?_ rfl
    · simp only [hleft]
    · have hpred := toNat_sub_one_add_one hpos
      simp only [List.length_cons] at hlen ⊢
      omega

end Sys2Proof.Machine

open Sys2Proof Sys2Proof.Machine

/-- Settles O37, by ST: the one step from DRAIN discards an item, the one from RESP delivers the response. -/
theorem failedFrameRecordsNothingMore : Obligations.FailedFrameRecordsNothingMore := by
  intro s t hrst hst hstep
  obtain hdrain | hresp := hst
  · obtain rfl := eq_discardItem_of_step_drain hrst hdrain hstep
    have hnext : (discardItem (popItem s)).st = .drain ∨ (discardItem (popItem s)).st = .resp := by
      rw [discardItem_st]
      split
      · exact .inr rfl
      · exact .inl hdrain
    exact ⟨rfl, rfl, rfl, rfl, by simp [outValid, hdrain], fun _ => ⟨hnext, rfl⟩, by simp [hdrain]⟩
  · obtain rfl := eq_deliverResponse_of_step_resp hrst hresp hstep
    exact ⟨rfl, rfl, rfl, rfl, by simp [outValid, hresp], by simp [hresp], fun _ => rfl⟩

/-- Settles O42: the word's acceptance is the error entry with OCNT 0, and the failed frame runs from there to its
response. -/
theorem reservedFrameIsDrained : Obligations.ReservedFrameIsDrained := by
  intro w x s ws xs hencode hdecode hlen hst heager hcmd hin
  obtain ⟨hrst, -, hready⟩ := heager
  have hstep := step_eq_rejection hrst hst hcmd hencode hdecode
  refine ⟨_, rspWord codeIllegalCommand ((opField w).zeroExtend 8) 0,
    (run_succ_of_step hstep).trans (run_failed_frame hrst hready rfl hlen hin), ?_,
    rfl, rfl, rfl, rfl, rfl, rfl, rfl, by simp [hcmd], rfl⟩
  have hop : ((opField w).zeroExtend 8).toNat = (opField w).toNat := BitVec.toNat_setWidth_of_le (by decide)
  rw [rspWord_toNat, hop]
  simp [opField]
end

section
/-! PROOFS. The family 70_reset_and_hazards: the reset as an equation for `step`, that it is idempotent, and the flags
of an idle core (R230). -/

namespace Sys2Proof.Machine

variable {s : State}

theorem step_eq_resetRegs (hrst : s.rst = true) : step s = .next (resetRegs s) := by
  rw [step, enabledTransfer_reset.2 hrst, fire]

/-- A reset of more than one cycle gives the same state (70 R230). -/
@[simp] theorem resetRegs_resetRegs : resetRegs (resetRegs s) = resetRegs s := rfl

/-- In IDLE a command is awaited, and no other channel is open (10_state R33). -/
theorem flags_of_idle (hst : s.st = .idle) :
    cmdReady s = true ∧ inReady s = false ∧ outValid s = false ∧ rspValid s = false := by
  simp [cmdReady, inReady, outValid, rspValid, hst]

end Sys2Proof.Machine

open Sys2Proof Sys2Proof.Machine

/-- Settles O22: with rst = 1 the step is the reset, rst stays 1 under it, so the next step is the reset again and
changes nothing, and it leaves the core in IDLE. -/
theorem resetTakesEveryRegister : Obligations.ResetTakesEveryRegister := by
  intro s hrst
  have hagain : step (resetRegs s) = .next (resetRegs s) := by
    rw [step_eq_resetRegs ((resetRegs_rst s).trans hrst), resetRegs_resetRegs]
  exact ⟨resetRegs s, step_eq_resetRegs hrst, hagain, rfl, flags_of_idle (resetRegs_st s)⟩
end

section
/-! PROOFS. The decoder and the encoder as inverses, the opcode table, and the acceptance of every command
(30_encoding R71, R73, R78; 40_frame_control R100 to R102, R110). -/

namespace Sys2Proof

/-! The two fields make up the whole word (30_encoding R71) -/

@[simp] theorem opField_append (op : OpCode) (len : FrameLen) : opField (op ++ len) = op :=
  BitVec.extractLsb'_append_eq_left

@[simp] theorem lenField_append (op : OpCode) (len : FrameLen) : lenField (op ++ len) = len :=
  BitVec.extractLsb'_append_eq_right

theorem opField_append_lenField (w : CmdWord) : opField w ++ lenField w = w := by
  apply BitVec.eq_of_toNat_eq
  have hop : (opField w).toNat = w.toNat / 2 ^ 28 := by
    rw [opField, BitVec.extractLsb'_toNat, Nat.shiftRight_eq_div_pow]
    omega
  have hlen : (lenField w).toNat = w.toNat % 2 ^ 28 := by
    rw [lenField, BitVec.extractLsb'_toNat, Nat.shiftRight_zero]
  rw [append_toNat, hop, hlen, Nat.div_add_mod']

@[simp] theorem encodeWord_decodeWord (w : CmdWord) : encodeWord (decodeWord w) = w := by
  rw [encodeWord, opOf_decodeWord, lenOf_decodeWord, opField_append_lenField]

/-- OP selects the constructor, and LEN is its operand (30_encoding R73). -/
@[simp] theorem decodeWord_encodeWord (i : Instr) : decodeWord (encodeWord i) = i := by
  rw [encodeWord, decodeWord, opField_append, lenField_append]
  cases i <;> rfl

/-! The opcode table (30_encoding R73) -/

/-- LEN never changes which command a word is (30_encoding R73). -/
theorem mnemonicOf_decodeWord (w : CmdWord) :
    mnemonicOf (decodeWord w) = mnemonicOf (decodeWord (opField w ++ 0#28)) := by
  unfold decodeWord
  rw [opField_append]
  split <;> rfl

/-- Every row's mask is that of OP, so the table reads OP alone. -/
theorem covers_eq_covers_opField {r : OpcodeRow} (hr : r ∈ opcodeTable) (w : CmdWord) :
    r.covers w = r.covers (opField w ++ 0#28) := by
  have hmask : r.mask = 0xF#4 ++ 0#28 := by revert r; decide
  have hword : w &&& r.mask = (opField w ++ 0#28) &&& r.mask := by
    rw [hmask, BitVec.and_append, ← opField_append_lenField w, BitVec.and_append, opField_append, BitVec.and_zero,
      BitVec.and_zero]
  rw [OpcodeRow.covers, OpcodeRow.covers, hword]

/-- The table at each of the 16 values of OP. -/
theorem opcodeTable_filter_op : ∀ op : OpCode,
    (opcodeTable.filter fun r => r.covers (op ++ 0#28)).map (·.mnemonic) = [mnemonicOf (decodeWord (op ++ 0#28))] := by
  decide

theorem opcodeTable_filter (w : CmdWord) :
    (opcodeTable.filter fun r => r.covers w).map (·.mnemonic) = [mnemonicOf (decodeWord w)] := by
  rw [List.filter_congr fun r hr => covers_eq_covers_opField hr w, opcodeTable_filter_op, ← mnemonicOf_decodeWord]

namespace Machine

variable {s t : State}

theorem exec_of_not_idle (i : Instr) (hst : s.st ≠ .idle) : exec i s = .fault .commandWaits := by
  cases i <;> exact if_neg hst

/-! What the steps outside IDLE leave: the command channel, and IDLE itself (40_frame_control R102) -/

theorem encodeItem_keeps_control {x : Byte} (h : encodeItem x s = .next t) : t.cmdIn = s.cmdIn ∧ t.st = s.st := by
  obtain ⟨-, ⟨-, -, rfl⟩ | ⟨-, rfl⟩⟩ := encodeItem_cases h <;> simp

/-- A decoded item leaves ST, or fails the frame (42_decode R161, R167). -/
theorem decodeItem_keeps_control {x : Byte} (h : decodeItem x s = .next t) :
    t.cmdIn = s.cmdIn ∧ (t.st = s.st ∨ t.st = .drain ∨ t.st = .resp) := by
  obtain ⟨-, rfl⟩ | ⟨-, -, ⟨-, -, -, rfl⟩ | ⟨-, -, rfl⟩⟩ := decodeItem_cases h
  · refine ⟨rfl, .inr ?_⟩
    rw [errorEntry_st]
    split <;> simp
  · simp
  · simp

theorem outXfer_keeps_control (h : outXfer s = .next t) : t.cmdIn = s.cmdIn ∧ (t.st = s.st ∨ t.st = .resp) := by
  obtain ⟨-, -, ⟨-, rfl⟩ | ⟨-, rfl⟩⟩ := outXfer_cases h
  · refine ⟨rfl, ?_⟩
    rw [closeOutput_st]
    split <;> simp
  · simp

theorem discardItem_keeps_busy (hst : s.st ≠ .idle) : (discardItem s).st ≠ .idle := by
  rw [discardItem_st]
  split
  · simp
  · exact hst

/-- A step from a state other than IDLE takes no command, and leads to IDLE only by the reset or by the response. -/
theorem step_of_not_idle (hst : s.st ≠ .idle) (hstep : step s = .next t) :
    t.cmdIn = s.cmdIn ∧ (s.rst = true ∨ t.st ≠ .idle ∨ (s.st = .resp ∧ t = deliverResponse s)) := by
  obtain ⟨hr, rfl⟩ | ⟨-, hcmd | henc | hdec | hdrain | hout | hresp⟩ := step_cases hstep
  · exact ⟨rfl, .inl hr⟩
  · exact absurd hcmd.1 hst
  · obtain ⟨-, -, -, x, xs, -, hitem⟩ := henc
    obtain ⟨hcmd, hmode⟩ := encodeItem_keeps_control hitem
    exact ⟨hcmd, .inr (.inl (by simp [hmode, hst]))⟩
  · obtain ⟨-, -, -, x, xs, -, hitem⟩ := hdec
    obtain ⟨hcmd, hmode⟩ := decodeItem_keeps_control hitem
    exact ⟨hcmd, .inr (.inl (by obtain h | h | h := hmode <;> simp [h, hst]))⟩
  · obtain ⟨-, -, x, xs, -, rfl⟩ := hdrain
    exact ⟨rfl, .inr (.inl (discardItem_keeps_busy (s := popItem s) hst))⟩
  · obtain ⟨-, -, -, hxfer⟩ := hout
    obtain ⟨hcmd, hmode⟩ := outXfer_keeps_control hxfer
    exact ⟨hcmd, .inr (.inl (by obtain h | h := hmode <;> simp [h, hst]))⟩
  · obtain ⟨hresp, -, rfl⟩ := hresp
    exact ⟨rfl, .inr (.inr ⟨hresp, rfl⟩)⟩

end Machine

end Sys2Proof

open Sys2Proof Sys2Proof.Machine

/-- Settles O2: the fields of a concatenation are its parts, and a word is the concatenation of its fields. -/
theorem decodeAndEncodeAgree : Obligations.DecodeAndEncodeAgree :=
  ⟨fun i _ => decodeWord_encodeWord i, encodeWord_decodeWord⟩

/-- Settles O3: the rows' masks are all that of OP, so the table is evaluated at the 16 values of OP. -/
theorem everyWordSelectsOneTableRow : Obligations.EveryWordSelectsOneTableRow := by
  refine fun w => ⟨opcodeTable_filter w, opOf_decodeWord w, lenOf_decodeWord w, fun w' hop => ?_⟩
  have hop : opField w' = opField w := hop
  rw [mnemonicOf_decodeWord w', hop, ← mnemonicOf_decodeWord]

/-- Settles O1, by evaluation of the seven words. -/
theorem writtenOutWordsDecode : Obligations.WrittenOutWordsDecode := by
  unfold Obligations.WrittenOutWordsDecode
  decide

/-- Settles O9: the head of the command channel is the enabled transfer of an idle core. -/
theorem stepRunsTheDecodedCommand : Obligations.StepRunsTheDecodedCommand := by
  intro s w ws hrst hst hin
  rw [step_eq_exec hrst hst hin, popCommand_of_cons hin]

/-- Settles O10: the word placed is the head of the command channel, and leaves it as it was. -/
theorem fetchedWordRunsNext : Obligations.FetchedWordRunsNext := by
  intro s w
  have hword : BitVec.ofNat 32 (w.toNat % 2 ^ 32) = w := by
    rw [Nat.mod_eq_of_lt w.isLt, BitVec.ofNat_toNat, BitVec.setWidth_eq]
  have hin : (s.withFetchWord 32 w.toNat).cmdIn = w :: s.cmdIn := congrArg (· :: s.cmdIn) hword
  rw [stepRunsTheDecodedCommand _ w s.cmdIn rfl rfl hin]
  rfl

/-- Settles O11: the acceptance of ENCODE written out. -/
theorem encodeIsAccepted : Obligations.EncodeIsAccepted := fun _ _ hst =>
  acceptCommand_next.2 ⟨hst, rfl⟩

/-- Settles O12, by the length check; a frame it fails has an item, so it drains. -/
theorem decodeIsAccepted : Obligations.DecodeIsAccepted := by
  refine fun len s hst => acceptCommand_next.2 ⟨hst, ?_⟩
  by_cases hlength : len.toNat % 5 = 1
  · have hlen : len ≠ 0 := by rintro rfl; simp at hlength
    rw [decodeAcceptance_of_lengthError hlength, if_pos hlength, if_pos hlength, errorEntry, if_neg hlen]
    rfl
  · rw [decodeAcceptance_of_not_lengthError hlength, if_neg hlength, if_neg hlength]
    rfl

/-- Settles O13: the 14 meanings are one rejection, at their own OP. -/
theorem reservedOperationsAreRejected : Obligations.ReservedOperationsAreRejected := by
  intro len s hst rejected
  have hreject (op : OpCode) : rejectCommand op len s = rejected op := rejectCommand_next.2 ⟨hst, rfl⟩
  exact ⟨hreject _, hreject _, hreject _, hreject _, hreject _, hreject _, hreject _, hreject _, hreject _, hreject _,
    hreject _, hreject _, hreject _, hreject _⟩

/-- Settles O15: no arm of the commands accepts outside IDLE, and of the steps there only the response enters IDLE. -/
theorem commandsWaitOutsideIdle : Obligations.CommandsWaitOutsideIdle := by
  refine ⟨fun i s hst => exec_of_not_idle i hst, fun s t hst hstep => (step_of_not_idle hst hstep).1,
    fun s t hst hrst hstep hidle => ?_⟩
  obtain ⟨-, hr | hbusy | ⟨hresp, rfl⟩⟩ := step_of_not_idle hst hstep
  · simp [hrst] at hr
  · exact absurd hidle hbusy
  · exact ⟨hresp, rfl⟩

/-- Settles O23, by evaluation of the reset state. -/
theorem resetStateHoldsTheResetValues : Obligations.ResetStateHoldsTheResetValues := by
  unfold Obligations.ResetStateHoldsTheResetValues
  decide
end

section
/-! PROOFS. The invariants of the reachable states (10_state R37, R21, R29 to R32): what they ask for in each mode of
the controller, and that reset, every transfer and every host act keep them. -/

namespace Sys2Proof.Machine

variable {s t : State}

/-! The length relations at the largest frame (41_encode R142, 42_decode R171) -/

theorem encLength_le_largest {N : Nat} (h : N < 2 ^ 28) : encLength N ≤ 335544319 := by
  simp only [encLength]
  split <;> omega

theorem decLength_le_largest {N : Nat} (h : N < 2 ^ 28) : decLength N ≤ 335544319 := by
  simp only [decLength]
  split <;> omega

/-! What the invariants ask for in each mode (10_state R37) -/

theorem flags_of_open (hst : s.st = .enc ∨ s.st = .dec ∨ s.st = .drain) :
    cmdReady s = false ∧ rspValid s = false := by
  obtain hst | hst | hst := hst <;> simp [cmdReady, rspValid, hst]

/-- 10_state R37 item 8 holds whatever the registers are: pending output excludes an awaited item, and the other flags
are of other modes. -/
theorem oneFlag_of_registers (s : State) : OneFlag s := by
  cases hin : inReady s with
  | true =>
    obtain ⟨hcmd, hrsp⟩ := flags_of_open (inReady_open hin).1
    have hout : outValid s = false := by
      rw [← Bool.not_eq_true]
      intro hvalid
      simp [inReady_of_outValid hvalid] at hin
    simp [OneFlag, hin, hcmd, hrsp, hout]
  | false =>
    cases hout : outValid s with
    | true =>
      obtain ⟨hcmd, hrsp⟩ := flags_of_open ((outValid_open hout).imp_right .inl)
      simp [OneFlag, hin, hcmd, hrsp, hout]
    | false =>
      cases hcmd : cmdReady s with
      | true => simp [OneFlag, flags_of_idle (cmdReady_iff.1 hcmd)]
      | false => simp [OneFlag, hin, hcmd, hout, Bool.toNat_le]

theorem outputShape_of_quiet (hquiet : Quiet s) : OutputShape s := by
  obtain ⟨-, -, -, holen, hoidx⟩ := hquiet
  simp [OutputShape, holen, hoidx]

/-- In IDLE and RESP the datapath holds nothing (10_state R37 items 1 and 2). -/
theorem runInvariant_of_quiet (hst : s.st = .idle ∨ s.st = .resp) (hquiet : Quiet s) (hstatus : s.status.toNat ≤ 3)
    (hcount : s.ocnt.toNat ≤ 335544319) : RunInvariant s := by
  have hshape := outputShape_of_quiet hquiet
  obtain hst | hst := hst <;>
  exact
    { idleQuiet := fun _ => hquiet
      respQuiet := fun _ => hquiet
      drainShape := by simp [DrainShape, hst]
      encShape := by simp [EncShape, hst]
      decShape := by simp [DecShape, hst]
      decNoLoneSymbol := by simp [DecNoLoneSymbol, hst]
      outputShape := hshape
      oneFlag := oneFlag_of_registers s
      outputSize := by simp [OutputSize, hst]
      statusLegal := hstatus
      countRoom := by simpa [CountRoom, hst] using hcount }

/-- In DRAIN items are left, and nothing else is held (10_state R37 item 3). -/
theorem runInvariant_of_drain (hst : s.st = .drain) (hrem : 0 < s.rem.toNat)
    (hheld : s.acc = 0 ∧ s.gcnt = 0 ∧ s.olen = 0 ∧ s.oidx = 0) (herror : s.status ≠ codeOk)
    (hstatus : s.status.toNat ≤ 3) (hcount : s.ocnt.toNat ≤ 335544319) : RunInvariant s := by
  obtain ⟨hacc, hgcnt, holen, hoidx⟩ := hheld
  exact
    { idleQuiet := by simp [IdleQuiet, hst]
      respQuiet := by simp [RespQuiet, hst]
      drainShape := fun _ => ⟨hrem, hacc, hgcnt, holen, hoidx, herror⟩
      encShape := by simp [EncShape, hst]
      decShape := by simp [DecShape, hst]
      decNoLoneSymbol := by simp [DecNoLoneSymbol, hst]
      outputShape := by simp [OutputShape, holen, hoidx]
      oneFlag := oneFlag_of_registers s
      outputSize := by simp [OutputSize, hst]
      statusLegal := hstatus
      countRoom := by simpa [CountRoom, hst] using hcount }

/-- In ENC (10_state R37 items 4 and 7, R29, R32). -/
theorem runInvariant_of_enc (hst : s.st = .enc) (hshape : EncShape s) (houtput : OutputShape s)
    (hsize : s.olen = 0 ∨ (2 ≤ s.olen.toNat ∧ s.olen.toNat ≤ 5))
    (hcount : s.ocnt.toNat + ((s.olen.toNat - s.oidx.toNat) + encLength (s.rem.toNat + s.gcnt.toNat)) ≤ 335544319) :
    RunInvariant s := by
  obtain ⟨-, hok, -⟩ := hshape hst
  exact
    { idleQuiet := by simp [IdleQuiet, hst]
      respQuiet := by simp [RespQuiet, hst]
      drainShape := by simp [DrainShape, hst]
      encShape := hshape
      decShape := by simp [DecShape, hst]
      decNoLoneSymbol := by simp [DecNoLoneSymbol, hst]
      outputShape := houtput
      oneFlag := oneFlag_of_registers s
      outputSize := ⟨fun _ => hsize, by simp [hst]⟩
      statusLegal := by simp [StatusLegal, hok]
      countRoom := by simpa only [CountRoom, hst] using hcount }

/-- In DEC (10_state R37 items 5 to 7, R29, R32). -/
theorem runInvariant_of_dec (hst : s.st = .dec) (hshape : DecShape s) (hlone : (s.rem.toNat + s.gcnt.toNat) % 5 ≠ 1)
    (houtput : OutputShape s) (hsize : s.olen.toNat ≤ 4)
    (hcount : s.ocnt.toNat + ((s.olen.toNat - s.oidx.toNat) + decLength (s.rem.toNat + s.gcnt.toNat)) ≤ 335544319) :
    RunInvariant s := by
  obtain ⟨-, hok, -⟩ := hshape hst
  exact
    { idleQuiet := by simp [IdleQuiet, hst]
      respQuiet := by simp [RespQuiet, hst]
      drainShape := by simp [DrainShape, hst]
      encShape := by simp [EncShape, hst]
      decShape := hshape
      decNoLoneSymbol := fun _ => hlone
      outputShape := houtput
      oneFlag := oneFlag_of_registers s
      outputSize := ⟨by simp [hst], fun _ => hsize⟩
      statusLegal := by simp [StatusLegal, hok]
      countRoom := by simpa only [CountRoom, hst] using hcount }

theorem RunInvariant.enc_room (h : RunInvariant s) (hst : s.st = .enc) :
    s.ocnt.toNat + ((s.olen.toNat - s.oidx.toNat) + encLength (s.rem.toNat + s.gcnt.toNat)) ≤ 335544319 := by
  simpa only [CountRoom, hst] using h.countRoom

theorem RunInvariant.dec_room (h : RunInvariant s) (hst : s.st = .dec) :
    s.ocnt.toNat + ((s.olen.toNat - s.oidx.toNat) + decLength (s.rem.toNat + s.gcnt.toNat)) ≤ 335544319 := by
  simpa only [CountRoom, hst] using h.countRoom

/-- OCNT is within the largest frame's number of items (10_state R21, 41_encode R142). -/
theorem RunInvariant.ocnt_le (h : RunInvariant s) : s.ocnt.toNat ≤ 335544319 :=
  Nat.le_of_add_right_le h.countRoom

/-- A group's output is at most OBUF's five entries (10_state R28, R29). -/
theorem RunInvariant.olen_le (h : RunInvariant s) : s.olen.toNat ≤ 5 := by
  by_cases hpos : 0 < s.olen.toNat
  · obtain ⟨-, -, -, hst | hst⟩ := h.outputShape.2 hpos
    · obtain hzero | ⟨-, hle⟩ := h.outputSize.1 hst
      · simp [hzero]
      · exact hle
    · exact (h.outputSize.2 hst).trans (by decide)
  · omega

/-- The invariants are of the core's registers: what the host drives, and what is recorded as delivered, does not
matter. -/
theorem RunInvariant.withHost (h : RunInvariant s) (rst : Bool) (cmdIn : List CmdWord) (itemIn : List Byte)
    (outReady rspReady : Bool) :
    RunInvariant
      { s with rst := rst, cmdIn := cmdIn, itemIn := itemIn, outReady := outReady, rspReady := rspReady } :=
  { idleQuiet := h.idleQuiet
    respQuiet := h.respQuiet
    drainShape := h.drainShape
    encShape := h.encShape
    decShape := h.decShape
    decNoLoneSymbol := h.decNoLoneSymbol
    outputShape := h.outputShape
    oneFlag := oneFlag_of_registers _
    outputSize := h.outputSize
    statusLegal := h.statusLegal
    countRoom := h.countRoom }

theorem RunInvariant.after_popItem (h : RunInvariant s) : RunInvariant (popItem s) :=
  h.withHost s.rst s.cmdIn s.itemIn.tail s.outReady s.rspReady

theorem RunInvariant.after_hostAct (h : RunInvariant s) (a : HostAct) : RunInvariant (hostAct a s) := by
  cases a <;> exact h.withHost _ _ _ _ _

/-! Reset and acceptance (70 R230, 40_frame_control R101) -/

theorem runInvariant_resetRegs (s : State) : RunInvariant (resetRegs s) :=
  runInvariant_of_quiet (.inl rfl) ⟨rfl, rfl, rfl, rfl, rfl⟩ (Nat.zero_le 3) (Nat.zero_le _)

/-- EVERYTHING AN ACCEPTANCE CAN DO (40_frame_control R101): ENCODE and DECODE start their frame, and a length error or
a reserved operation enters the error. -/
theorem exec_next_cases {i : Instr} (h : exec i s = .next t) :
    s.st = .idle ∧
      ((opOf i = 0x1 ∧ t = startFrame .enc (lenOf i) (openFrame 0x1 (lenOf i) s)) ∨
       (opOf i = 0x2 ∧ (lenOf i).toNat % 5 ≠ 1 ∧ t = startFrame .dec (lenOf i) (openFrame 0x2 (lenOf i) s)) ∨
       (opOf i = 0x2 ∧ (lenOf i).toNat % 5 = 1 ∧
          t = errorEntry codeInvalidLength 0x00 (lenOf i) (openFrame 0x2 (lenOf i) s)) ∨
       (opOf i ≠ 0x1 ∧ opOf i ≠ 0x2 ∧
          t = errorEntry codeIllegalCommand ((opOf i).zeroExtend 8) (lenOf i) (openFrame (opOf i) (lenOf i) s))) := by
  by_cases hreserved : opOf i ≠ 0x1 ∧ opOf i ≠ 0x2
  · obtain ⟨hencode, hdecode⟩ := hreserved
    rw [exec_of_reserved hencode hdecode] at h
    obtain ⟨hst, rfl⟩ := rejectCommand_next.1 h
    exact ⟨hst, .inr (.inr (.inr ⟨hencode, hdecode, rfl⟩))⟩
  · cases i with
    | encode len =>
      obtain ⟨hst, rfl⟩ := acceptCommand_next.1 h
      exact ⟨hst, .inl ⟨rfl, rfl⟩⟩
    | decode len =>
      obtain ⟨hst, rfl⟩ := acceptCommand_next.1 h
      by_cases hlength : len.toNat % 5 = 1
      · rw [decodeAcceptance_of_lengthError hlength]
        exact ⟨hst, .inr (.inr (.inl ⟨rfl, hlength, rfl⟩))⟩
      · rw [decodeAcceptance_of_not_lengthError hlength]
        exact ⟨hst, .inr (.inl ⟨rfl, hlength, rfl⟩)⟩
    | _ len => exact absurd (by simp [opOf]) hreserved

/-- An error entered with nothing pending leaves DRAIN or RESP in their shape (60_exceptions R207). -/
theorem runInvariant_errorEntry {code : StatusCode} (info : Byte) (hcode : code = 1 ∨ code = 2 ∨ code = 3)
    (hpending : s.olen = 0 ∧ s.oidx = 0) (hcount : s.ocnt.toNat ≤ 335544319) :
    RunInvariant (errorEntry code info s.rem s) := by
  obtain ⟨holen, hoidx⟩ := hpending
  have herror : code ≠ codeOk ∧ code.toNat ≤ 3 := by obtain rfl | rfl | rfl := hcode <;> decide
  by_cases hleft : s.rem = 0
  · exact runInvariant_of_quiet (.inr (if_pos hleft)) ⟨hleft, rfl, rfl, holen, hoidx⟩ herror.2 hcount
  · exact runInvariant_of_drain (if_neg hleft) (by rw [errorEntry_rem]; bv_omega) ⟨rfl, rfl, holen, hoidx⟩ herror.1
      herror.2 hcount

theorem runInvariant_startFrame_enc (len : FrameLen) (s : State) :
    RunInvariant (startFrame .enc len (openFrame 0x1 len s)) := by
  by_cases hlen : len = 0
  · exact runInvariant_of_quiet (.inr (if_pos hlen)) ⟨hlen, rfl, rfl, rfl, rfl⟩ (Nat.zero_le 3) (Nat.zero_le _)
  · have hst : (startFrame .enc len (openFrame 0x1 len s)).st = .enc := if_neg hlen
    refine runInvariant_of_enc hst (fun _ => ⟨rfl, rfl, by simp, by simp, by simp, .inl ?_⟩)
      (by simp [OutputShape]) (.inl rfl) ?_
    · simp only [startFrame_rem, openFrame_rem]
      bv_omega
    · simpa using encLength_le_largest len.isLt

theorem runInvariant_startFrame_dec {len : FrameLen} (hlength : len.toNat % 5 ≠ 1) (s : State) :
    RunInvariant (startFrame .dec len (openFrame 0x2 len s)) := by
  by_cases hlen : len = 0
  · exact runInvariant_of_quiet (.inr (if_pos hlen)) ⟨hlen, rfl, rfl, rfl, rfl⟩ (Nat.zero_le 3) (Nat.zero_le _)
  · have hst : (startFrame .dec len (openFrame 0x2 len s)).st = .dec := if_neg hlen
    refine runInvariant_of_dec hst (fun _ => ⟨rfl, rfl, by simp, by simp, .inl ?_⟩) (by simpa using hlength)
      (by simp [OutputShape]) (by simp) ?_
    · simp only [startFrame_rem, openFrame_rem]
      bv_omega
    · simpa using decLength_le_largest len.isLt

theorem runInvariant_of_exec {i : Instr} (h : exec i s = .next t) : RunInvariant t := by
  obtain ⟨-, ⟨-, rfl⟩ | ⟨-, hlength, rfl⟩ | ⟨-, -, rfl⟩ | ⟨-, -, rfl⟩⟩ := exec_next_cases h
  · exact runInvariant_startFrame_enc _ s
  · exact runInvariant_startFrame_dec hlength s
  · exact runInvariant_errorEntry (s := openFrame 0x2 (lenOf i) s) _ (.inl rfl) ⟨rfl, rfl⟩ (Nat.zero_le _)
  · exact runInvariant_errorEntry (s := openFrame (opOf i) (lenOf i) s) _ (.inr (.inr rfl)) ⟨rfl, rfl⟩ (Nat.zero_le _)

/-! An input item (41_encode R131, 42_decode R161, 40_frame_control R107) -/

/-- The symbols still to come when a byte completes its group (41_encode R132, R142). -/
theorem encLength_of_last {rem gcnt : Nat} (hrem : 1 ≤ rem) (hgcnt : gcnt ≤ 3) (hlast : gcnt + 1 = 4 ∨ rem = 1) :
    encLength (rem + gcnt) = gcnt + 2 + encLength (rem - 1) := by
  simp only [encLength]
  split_ifs <;> omega

/-- The bytes still to come when a symbol completes its group (42_decode R162, R171). -/
theorem decLength_of_last {rem gcnt : Nat} (hrem : 1 ≤ rem) (hgcnt : gcnt ≤ 4) (hlast : gcnt + 1 = 5 ∨ rem = 1) :
    decLength (rem + gcnt) = gcnt + decLength (rem - 1) := by
  simp only [decLength]
  split_ifs <;> omega

/-- ACC's next target byte is 0 again after a byte is packed (10_state R37 item 4). -/
theorem packByte_target_zero {acc gcnt : Nat} (x : Byte) (hgcnt : gcnt ≤ 2)
    (htarget : acc % 2 ^ (8 * (4 - gcnt)) = 0) : packByte acc gcnt x % 2 ^ (8 * (4 - (gcnt + 1))) = 0 := by
  simp only [packByte]
  interval_cases gcnt <;> omega

/-- `REM = 1` as the frame's last item, in numbers. -/
theorem rem_eq_one_iff : s.rem = 1 ↔ s.rem.toNat = 1 := by
  rw [← BitVec.toNat_inj]
  rfl

theorem rem_pos {r : FrameLen} (h : r ≠ 0) : 1 ≤ r.toNat := by bv_omega

theorem rem_sub_one_toNat {r : FrameLen} (h : r ≠ 0) : (r - 1).toNat = r.toNat - 1 := by bv_omega

theorem toNat_ofNat_of_lt {w n : Nat} (h : n < 2 ^ w) : (BitVec.ofNat w n).toNat = n := by
  rw [BitVec.toNat_ofNat, Nat.mod_eq_of_lt h]

/-- A converted group is pending from its first item, and no group is open (10_state R37 item 7). -/
theorem outputShape_loadOutput (items : List Byte) (hst : s.st = .enc ∨ s.st = .dec) :
    OutputShape (loadOutput items (clearGroup (countItem s))) :=
  ⟨fun _ => rfl, fun hpos => ⟨by simpa using hpos, rfl, rfl, hst⟩⟩

/-- While a group is open no output is pending (10_state R37 item 7). -/
theorem outputShape_of_olen (holen : s.olen = 0) (hoidx : s.oidx = 0) : OutputShape s :=
  ⟨fun _ => hoidx, fun hpos => by simp [holen] at hpos⟩

theorem runInvariant_of_encodeItem {x : Byte} (h : RunInvariant s) (hst : s.st = .enc) (holen : s.olen = 0)
    (hrem : s.rem ≠ 0) (hitem : encodeItem x s = .next t) : RunInvariant t := by
  obtain ⟨hop, hok, -, -, htarget, -⟩ := h.encShape hst
  have hoidx : s.oidx = 0 := h.outputShape.1 holen
  have hcount := h.enc_room hst
  have hpos := rem_pos hrem
  have hpred := rem_sub_one_toNat hrem
  simp only [holen, hoidx, Nat.sub_self, Nat.zero_add] at hcount
  obtain ⟨hgcnt, ⟨hlast, -, rfl⟩ | ⟨hlast, rfl⟩⟩ := encodeItem_cases hitem <;> rw [rem_eq_one_iff] at hlast
  · have hsize : (groupSymbols (packByte s.acc.toNat s.gcnt.toNat x) (s.gcnt.toNat + 1)).length = s.gcnt.toNat + 2 := by
      rw [groupSymbols_length]
      omega
    have holen' := toNat_ofNat_of_lt (w := 3) (n := s.gcnt.toNat + 2) (by omega)
    refine runInvariant_of_enc hst (fun _ => ⟨hop, hok, by simp, by simp, by simp, .inr ?_⟩)
      (outputShape_loadOutput _ (.inl hst)) (.inr ?_) ?_
    · rw [loadOutput_olen, hsize, holen']
      omega
    · rw [loadOutput_olen, hsize, holen']
      omega
    · rw [encLength_of_last hpos hgcnt hlast] at hcount
      change s.ocnt.toNat + ((BitVec.ofNat 3 _).toNat - 0 + encLength ((s.rem - 1).toNat + 0)) ≤ 335544319
      rwa [hsize, holen', hpred]
  · have hpack := packByte_lt_of_target_zero x hgcnt htarget
    have hacc' := toNat_ofNat_of_lt (w := 33) (n := packByte s.acc.toNat s.gcnt.toNat x) (by omega)
    have hgcnt' := toNat_ofNat_of_lt (w := 3) (n := s.gcnt.toNat + 1) (by omega)
    refine runInvariant_of_enc hst (fun _ => ⟨hop, hok, ?_, ?_, ?_, .inl ?_⟩) (outputShape_of_olen holen hoidx)
      (.inl holen) ?_
    · rw [holdGroup_gcnt, hgcnt']
      omega
    · rwa [holdGroup_acc, hacc']
    · rw [holdGroup_acc, holdGroup_gcnt, hacc', hgcnt']
      exact packByte_target_zero x (by omega) htarget
    · rw [holdGroup_rem, countItem_rem, hpred]
      omega
    · have hsum : s.rem.toNat - 1 + (s.gcnt.toNat + 1) = s.rem.toNat + s.gcnt.toNat := by omega
      change s.ocnt.toNat + (s.olen.toNat - s.oidx.toNat + encLength ((s.rem - 1).toNat + (BitVec.ofNat 3 _).toNat)) ≤ _
      simpa only [hgcnt', hpred, hsum, holen, hoidx, Nat.sub_self, Nat.zero_add] using hcount

theorem runInvariant_of_decodeItem {x : Byte} (h : RunInvariant s) (hst : s.st = .dec) (holen : s.olen = 0)
    (hrem : s.rem ≠ 0) (hitem : decodeItem x s = .next t) : RunInvariant t := by
  obtain ⟨hop, hok, -, hacc, -⟩ := h.decShape hst
  have hlone := h.decNoLoneSymbol hst
  have hoidx : s.oidx = 0 := h.outputShape.1 holen
  have hcount := h.dec_room hst
  have hpos := rem_pos hrem
  have hpred := rem_sub_one_toNat hrem
  simp only [holen, hoidx, Nat.sub_self, Nat.zero_add] at hcount
  obtain ⟨-, rfl⟩ | ⟨-, hgcnt, ⟨hlast, -, hmin, rfl⟩ | ⟨hlast, hfits, rfl⟩⟩ := decodeItem_cases hitem
  · exact runInvariant_errorEntry (s := countItem s) x (.inr (.inl rfl)) ⟨holen, hoidx⟩ h.ocnt_le
  · rw [rem_eq_one_iff] at hlast
    have hsize : (groupBytes (accumulate s.acc.toNat x) (s.gcnt.toNat + 1)).length = s.gcnt.toNat := by
      rw [groupBytes_length]
      omega
    have holen' := toNat_ofNat_of_lt (w := 3) (n := s.gcnt.toNat) (by omega)
    refine runInvariant_of_dec hst (fun _ => ⟨hop, hok, by simp, by simp, .inr ?_⟩) ?_
      (outputShape_loadOutput _ (.inr hst)) ?_ ?_
    · rw [loadOutput_olen, hsize, holen']
      omega
    · simp only [loadOutput_rem, loadOutput_gcnt, clearGroup_rem, clearGroup_gcnt, countItem_rem, hpred]
      simp
      omega
    · rwa [loadOutput_olen, hsize, holen']
    · rw [decLength_of_last hpos hgcnt hlast] at hcount
      change s.ocnt.toNat + ((BitVec.ofNat 3 _).toNat - 0 + decLength ((s.rem - 1).toNat + 0)) ≤ 335544319
      rwa [hsize, holen', hpred]
  · rw [rem_eq_one_iff] at hlast
    have hacc' := toNat_ofNat_of_lt hfits
    have hgcnt' := toNat_ofNat_of_lt (w := 3) (n := s.gcnt.toNat + 1) (by omega)
    have hsum : s.rem.toNat - 1 + (s.gcnt.toNat + 1) = s.rem.toNat + s.gcnt.toNat := by omega
    refine runInvariant_of_dec hst (fun _ => ⟨hop, hok, ?_, ?_, .inl ?_⟩) ?_ (outputShape_of_olen holen hoidx) ?_ ?_
    · rw [holdGroup_gcnt, hgcnt']
      omega
    · rw [holdGroup_acc, holdGroup_gcnt, hacc', hgcnt']
      exact accumulate_lt x hacc
    · rw [holdGroup_rem, countItem_rem, hpred]
      omega
    · rwa [holdGroup_rem, countItem_rem, holdGroup_gcnt, hgcnt', hpred, hsum]
    · simp [holen]
    · change s.ocnt.toNat + (s.olen.toNat - s.oidx.toNat + decLength ((s.rem - 1).toNat + (BitVec.ofNat 3 _).toNat)) ≤ _
      simpa only [hgcnt', hpred, hsum, holen, hoidx, Nat.sub_self, Nat.zero_add] using hcount

theorem runInvariant_discardItem (h : RunInvariant s) (hst : s.st = .drain) (hrem : s.rem ≠ 0) :
    RunInvariant (discardItem s) := by
  obtain ⟨-, hacc, hgcnt, holen, hoidx, herror⟩ := h.drainShape hst
  have hpred := rem_sub_one_toNat hrem
  have hpos := rem_pos hrem
  by_cases hlast : s.rem = 1
  · have hzero : s.rem - 1 = 0 := sub_eq_zero.2 hlast
    exact runInvariant_of_quiet (.inr (if_pos hlast)) ⟨hzero, hacc, hgcnt, holen, hoidx⟩ h.statusLegal h.ocnt_le
  · have hmode : (discardItem s).st = .drain := (if_neg hlast).trans hst
    rw [rem_eq_one_iff] at hlast
    refine runInvariant_of_drain hmode ?_ ⟨hacc, hgcnt, holen, hoidx⟩ herror h.statusLegal h.ocnt_le
    rw [discardItem_rem, hpred]
    omega

/-! An output item (40_frame_control R104) -/

theorem succ_ocnt_toNat (h : s.ocnt.toNat + 1 < 2 ^ 32) : (s.ocnt + 1).toNat = s.ocnt.toNat + 1 := by bv_omega

/-- After the group's last item, with items of the frame left, its next group begins. -/
theorem runInvariant_closeOutput_open (y : Byte) (h : RunInvariant s) (hst : s.st = .enc ∨ s.st = .dec)
    (hvalid : s.oidx.toNat < s.olen.toNat) (hrem : s.rem ≠ 0) (hbound : s.ocnt.toNat + 1 < 2 ^ 32) :
    RunInvariant (closeOutput (give y s)) := by
  have hocnt := succ_ocnt_toNat hbound
  have hmode : (closeOutput (give y s)).st = s.st := if_neg hrem
  have hpos := rem_pos hrem
  obtain hst | hst := hst
  · obtain ⟨hop, hok, hgcnt, hacc, htarget, -⟩ := h.encShape hst
    have hcount := h.enc_room hst
    refine runInvariant_of_enc (hmode.trans hst) (fun _ => ⟨hop, hok, hgcnt, hacc, htarget, .inl hpos⟩)
      (outputShape_of_olen rfl rfl) (.inl rfl) ?_
    change (s.ocnt + 1).toNat + (0 - 0 + encLength (s.rem.toNat + s.gcnt.toNat)) ≤ _
    rw [hocnt]
    omega
  · obtain ⟨hop, hok, hgcnt, hacc, -⟩ := h.decShape hst
    have hcount := h.dec_room hst
    refine runInvariant_of_dec (hmode.trans hst) (fun _ => ⟨hop, hok, hgcnt, hacc, .inl hpos⟩)
      (h.decNoLoneSymbol hst) (outputShape_of_olen rfl rfl) (Nat.zero_le 4) ?_
    change (s.ocnt + 1).toNat + (0 - 0 + decLength (s.rem.toNat + s.gcnt.toNat)) ≤ _
    rw [hocnt]
    omega

/-- After an item with another behind it the group's output is still pending. -/
theorem runInvariant_nextOutput (y : Byte) (h : RunInvariant s) (hst : s.st = .enc ∨ s.st = .dec)
    (hvalid : s.oidx.toNat + 1 < s.olen.toNat) (hbound : s.ocnt.toNat + 1 < 2 ^ 32) :
    RunInvariant (nextOutput (give y s)) := by
  have hocnt := succ_ocnt_toNat hbound
  obtain ⟨-, hnogroup, hnoacc, -⟩ := h.outputShape.2 (by omega)
  have hoidx : (s.oidx + 1).toNat = s.oidx.toNat + 1 := by bv_omega
  have hoidx' : (nextOutput (give y s)).oidx.toNat < s.olen.toNat := by rwa [nextOutput_oidx, give_oidx, hoidx]
  have houtput : OutputShape (nextOutput (give y s)) :=
    ⟨fun hzero => by simp [show s.olen = 0 from hzero] at hvalid, fun _ => ⟨hoidx', hnogroup, hnoacc, hst⟩⟩
  obtain hst | hst := hst
  · have hcount := h.enc_room hst
    refine runInvariant_of_enc hst (h.encShape) houtput (h.outputSize.1 hst) ?_
    change (s.ocnt + 1).toNat + (s.olen.toNat - (s.oidx + 1).toNat + encLength (s.rem.toNat + s.gcnt.toNat)) ≤ _
    rw [hocnt, hoidx]
    omega
  · have hcount := h.dec_room hst
    refine runInvariant_of_dec hst h.decShape (h.decNoLoneSymbol hst) houtput (h.outputSize.2 hst) ?_
    change (s.ocnt + 1).toNat + (s.olen.toNat - (s.oidx + 1).toNat + decLength (s.rem.toNat + s.gcnt.toNat)) ≤ _
    rw [hocnt, hoidx]
    omega

theorem runInvariant_of_outXfer (h : RunInvariant s) (hst : s.st = .enc ∨ s.st = .dec)
    (hvalid : s.oidx.toNat < s.olen.toNat) (hout : outXfer s = .next t) : RunInvariant t := by
  obtain ⟨hidx, hbound, ⟨-, rfl⟩ | ⟨hmore, rfl⟩⟩ := outXfer_cases hout
  · by_cases hrem : s.rem = 0
    · obtain ⟨-, hgcnt, hacc, -⟩ := h.outputShape.2 (by omega)
      refine runInvariant_of_quiet (.inr (if_pos hrem)) ⟨hrem, hacc, hgcnt, rfl, rfl⟩ h.statusLegal ?_
      rw [closeOutput_ocnt, give_ocnt, succ_ocnt_toNat hbound]
      obtain hst | hst := hst
      · have hcount := h.enc_room hst
        omega
      · have hcount := h.dec_room hst
        omega
    · exact runInvariant_closeOutput_open _ h hst hvalid hrem hbound
  · exact runInvariant_nextOutput _ h hst (by omega) hbound

theorem runInvariant_deliverResponse (h : RunInvariant s) (hst : s.st = .resp) : RunInvariant (deliverResponse s) :=
  runInvariant_of_quiet (.inl rfl) (h.respQuiet hst) h.statusLegal h.ocnt_le

theorem RunInvariant.after_step (h : RunInvariant s) (hstep : step s = .next t) : RunInvariant t := by
  obtain ⟨-, rfl⟩ | ⟨-, hcmd | henc | hdec | hdrain | hout | hresp⟩ := step_cases hstep
  · exact runInvariant_resetRegs s
  · obtain ⟨-, w, ws, -, hexec⟩ := hcmd
    exact runInvariant_of_exec hexec
  · obtain ⟨hst, holen, hrem, x, xs, -, hitem⟩ := henc
    exact runInvariant_of_encodeItem h.after_popItem hst holen hrem hitem
  · obtain ⟨hst, holen, hrem, x, xs, -, hitem⟩ := hdec
    exact runInvariant_of_decodeItem h.after_popItem hst holen hrem hitem
  · obtain ⟨hst, hrem, x, xs, -, rfl⟩ := hdrain
    exact runInvariant_discardItem h.after_popItem hst hrem
  · obtain ⟨hst, hvalid, -, hxfer⟩ := hout
    exact runInvariant_of_outXfer h hst hvalid hxfer
  · obtain ⟨hst, -, rfl⟩ := hresp
    exact runInvariant_deliverResponse h hst

/-! What STATUS and INFO tell of the frame (10_state R30, R31; 60_exceptions R201) -/

/-- With STATUS = OK nothing but INFO = 0 and the modes' own OP is asked for. -/
theorem errorDetail_of_ok (hok : s.status = codeOk) (hinfo : s.info = 0x00) (henc : s.st = .enc → s.op = 0x1)
    (hdec : s.st = .dec → s.op = 0x2) : ErrorDetail s := by
  simp only [ErrorDetail, StatusLegal, hok, hinfo]
  simpa using ⟨henc, hdec⟩

theorem ErrorDetail.ok_of_enc_or_dec (h : ErrorDetail s) (hst : s.st = .enc ∨ s.st = .dec) :
    s.status = codeOk ∧ s.info = 0x00 := by
  obtain ⟨-, hinfo, -, -, -, henc, hdec⟩ := h
  have hok : s.status = codeOk := by
    obtain hst | hst := hst
    · exact (henc hst).2
    · exact (hdec hst).2
  exact ⟨hok, hinfo hok⟩

/-- A step of a frame without an error that leaves OP, STATUS and INFO, and does not move between ENC and DEC. -/
theorem ErrorDetail.of_kept (h : ErrorDetail s) (hst : s.st = .enc ∨ s.st = .dec) (hop : t.op = s.op)
    (hstatus : t.status = s.status) (hinfo : t.info = s.info) (hmode : t.st = s.st ∨ t.st = .resp) : ErrorDetail t := by
  obtain ⟨hok, hzero⟩ := h.ok_of_enc_or_dec hst
  obtain ⟨-, -, -, -, -, henc, hdec⟩ := h
  refine errorDetail_of_ok (hstatus.trans hok) (hinfo.trans hzero) (fun hmode' => ?_) (fun hmode' => ?_)
  · have hsame : s.st = .enc := by simpa [hmode', eq_comm] using hmode
    exact hop.trans (henc hsame).1
  · have hsame : s.st = .dec := by simpa [hmode', eq_comm] using hmode
    exact hop.trans (hdec hsame).1

/-- A failed frame keeps what is recorded, and OCNT with it (60_exceptions R208). -/
theorem ErrorDetail.of_recorded (h : ErrorDetail s) (hop : t.op = s.op) (hstatus : t.status = s.status)
    (hinfo : t.info = s.info) (hocnt : t.ocnt = s.ocnt) (henc : t.st ≠ .enc) (hdec : t.st ≠ .dec) : ErrorDetail t := by
  obtain ⟨hlegal, hok, hlength, hsymbol, hillegal, -, -⟩ := h
  simp only [ErrorDetail, StatusLegal, hop, hstatus, hinfo, hocnt]
  exact ⟨hlegal, hok, hlength, hsymbol, hillegal, fun hst => absurd hst henc, fun hst => absurd hst hdec⟩

/-- The three errors, each with the detail 10_state R31 gives it; those found at acceptance have delivered nothing. -/
theorem errorDetail_errorEntry {code : StatusCode} {info : Byte} (left : FrameLen)
    (herror : (code = codeInvalidLength ∧ s.op = 0x2 ∧ info = 0x00 ∧ s.ocnt = 0) ∨
      (code = codeInvalidSymbol ∧ s.op = 0x2 ∧ isSymbol info = false) ∨
      (code = codeIllegalCommand ∧ s.op ≠ 0x1 ∧ s.op ≠ 0x2 ∧ info = s.op.zeroExtend 8 ∧ s.ocnt = 0)) :
    ErrorDetail (errorEntry code info left s) := by
  have hfailed : (errorEntry code info left s).st ≠ .enc ∧ (errorEntry code info left s).st ≠ .dec := by
    rw [errorEntry_st]
    split <;> simp
  have hmode (p q : Prop) :
      ((errorEntry code info left s).st = .enc → p) ∧ ((errorEntry code info left s).st = .dec → q) :=
    ⟨fun hst => absurd hst hfailed.1, fun hst => absurd hst hfailed.2⟩
  obtain ⟨rfl, hop, hinfo, hocnt⟩ | ⟨rfl, hop, hx⟩ | ⟨rfl, hencode, hdecode, hinfo, hocnt⟩ := herror
  · exact ⟨by simp [StatusLegal], by simp, fun _ => ⟨hop, hinfo, hocnt⟩, by simp, by simp, hmode _ _⟩
  · exact ⟨by simp [StatusLegal], by simp, by simp, fun _ => ⟨hop, hx⟩, by simp, hmode _ _⟩
  · exact ⟨by simp [StatusLegal], by simp, by simp, by simp, fun _ => ⟨hencode, hdecode, hinfo, hocnt⟩, hmode _ _⟩

theorem errorDetail_of_exec {i : Instr} (h : exec i s = .next t) : ErrorDetail t := by
  obtain ⟨-, ⟨-, rfl⟩ | ⟨-, -, rfl⟩ | ⟨-, -, rfl⟩ | ⟨hencode, hdecode, rfl⟩⟩ := exec_next_cases h
  · refine errorDetail_of_ok rfl rfl (fun _ => rfl) (fun hst => ?_)
    rw [startFrame_st] at hst
    split at hst <;> cases hst
  · refine errorDetail_of_ok rfl rfl (fun hst => ?_) (fun _ => rfl)
    rw [startFrame_st] at hst
    split at hst <;> cases hst
  · exact errorDetail_errorEntry (s := openFrame 0x2 (lenOf i) s) _ (.inl ⟨rfl, rfl, rfl, rfl⟩)
  · exact errorDetail_errorEntry (s := openFrame (opOf i) (lenOf i) s) _
      (.inr (.inr ⟨rfl, hencode, hdecode, rfl, rfl⟩))

theorem ErrorDetail.after_encodeItem {x : Byte} (h : ErrorDetail s) (hst : s.st = .enc)
    (hitem : encodeItem x s = .next t) : ErrorDetail t := by
  obtain ⟨-, ⟨-, -, rfl⟩ | ⟨-, rfl⟩⟩ := encodeItem_cases hitem <;> exact h.of_kept (.inl hst) rfl rfl rfl (.inl rfl)

theorem ErrorDetail.after_decodeItem {x : Byte} (h : ErrorDetail s) (hst : s.st = .dec)
    (hitem : decodeItem x s = .next t) : ErrorDetail t := by
  obtain ⟨hx, rfl⟩ | ⟨-, -, ⟨-, -, -, rfl⟩ | ⟨-, -, rfl⟩⟩ := decodeItem_cases hitem
  · obtain ⟨-, -, -, -, -, -, hdec⟩ := h
    exact errorDetail_errorEntry (s := countItem s) _ (.inr (.inl ⟨rfl, (hdec hst).1, hx⟩))
  · exact h.of_kept (.inr hst) rfl rfl rfl (.inl rfl)
  · exact h.of_kept (.inr hst) rfl rfl rfl (.inl rfl)

theorem ErrorDetail.after_outXfer (h : ErrorDetail s) (hst : s.st = .enc ∨ s.st = .dec) (hout : outXfer s = .next t) :
    ErrorDetail t := by
  have hmode := (outXfer_keeps_control hout).2
  obtain ⟨_, -, ⟨-, rfl⟩ | ⟨-, rfl⟩⟩ := outXfer_cases hout <;> exact h.of_kept hst rfl rfl rfl hmode

theorem ErrorDetail.after_discardItem (h : ErrorDetail s) (hst : s.st = .drain) : ErrorDetail (discardItem s) := by
  have hmode : (discardItem s).st ≠ .enc ∧ (discardItem s).st ≠ .dec := by
    rw [discardItem_st]
    split <;> simp [hst]
  exact h.of_recorded rfl rfl rfl rfl hmode.1 hmode.2

theorem ErrorDetail.after_step (h : ErrorDetail s) (hstep : step s = .next t) : ErrorDetail t := by
  obtain ⟨-, rfl⟩ | ⟨-, hcmd | henc | hdec | hdrain | hout | hresp⟩ := step_cases hstep
  · exact errorDetail_of_ok rfl rfl (by simp) (by simp)
  · obtain ⟨-, w, ws, -, hexec⟩ := hcmd
    exact errorDetail_of_exec hexec
  · obtain ⟨hst, -, -, x, xs, -, hitem⟩ := henc
    exact ErrorDetail.after_encodeItem (s := popItem s) h hst hitem
  · obtain ⟨hst, -, -, x, xs, -, hitem⟩ := hdec
    exact ErrorDetail.after_decodeItem (s := popItem s) h hst hitem
  · obtain ⟨hst, -, x, xs, -, rfl⟩ := hdrain
    exact ErrorDetail.after_discardItem (s := popItem s) h hst
  · obtain ⟨hst, -, -, hxfer⟩ := hout
    exact h.after_outXfer hst hxfer
  · obtain ⟨-, -, rfl⟩ := hresp
    exact h.of_recorded rfl rfl rfl rfl (by simp) (by simp)

theorem ErrorDetail.after_hostAct (h : ErrorDetail s) (a : HostAct) : ErrorDetail (hostAct a s) := by
  cases a <;> exact h

/-! Which steps the invariants let be taken (40_frame_control R100) -/

/-- Outside IDLE the core offers or asks for something (40_frame_control R111). -/
theorem RunInvariant.some_flag (h : RunInvariant s) (hst : s.st ≠ .idle) :
    inReady s = true ∨ outValid s = true ∨ rspValid s = true := by
  have hopen (hst : s.st = .enc ∨ s.st = .dec) (hwork : 0 < s.rem.toNat ∨ 0 < s.olen.toNat) :
      inReady s = true ∨ outValid s = true ∨ rspValid s = true := by
    by_cases hpending : 0 < s.olen.toNat
    · exact .inr (.inl (outValid_iff.2 ⟨hst, (h.outputShape.2 hpending).1⟩))
    · exact .inl (inReady_iff.2 (.inl ⟨hst, by bv_omega, hwork.resolve_right hpending⟩))
  cases hmode : s.st with
  | idle => exact absurd hmode hst
  | enc =>
    obtain ⟨-, -, -, -, -, hwork⟩ := h.encShape hmode
    exact hopen (.inl hmode) hwork
  | dec =>
    obtain ⟨-, -, -, -, hwork⟩ := h.decShape hmode
    exact hopen (.inr hmode) hwork
  | drain => exact .inl (inReady_iff.2 (.inr ⟨hmode, (h.drainShape hmode).1⟩))
  | resp => exact .inr (.inr (rspValid_iff.2 hmode))

/-- In IDLE every command is accepted (40_frame_control R101). -/
theorem exec_of_idle (i : Instr) (hst : s.st = .idle) : ∃ t, exec i s = .next t := by
  cases i <;> exact ⟨_, if_pos hst⟩

/-- Where an item is awaited, the next one is taken: the preconditions of its step hold (10_state R37). -/
theorem RunInvariant.inXfer_taken (h : RunInvariant s) (hready : inReady s = true) (x : Byte) :
    ∃ t, inXfer x s = .next t := by
  obtain ⟨hst, -⟩ := inReady_open hready
  obtain hst | hst | hst := hst
  · obtain ⟨-, -, hgcnt, -, htarget, -⟩ := h.encShape hst
    exact ⟨_, by simpa only [inXfer, hst] using encodeItem_eq_next hgcnt (packByte_lt_of_target_zero x hgcnt htarget)⟩
  · obtain ⟨-, -, hgcnt, hacc, -⟩ := h.decShape hst
    cases hx : isSymbol x with
    | false => exact ⟨_, by simpa only [inXfer, hst] using decodeItem_of_not_isSymbol hx⟩
    | true =>
      exact ⟨_, by simpa only [inXfer, hst] using decodeItem_of_isSymbol hx hgcnt hacc (h.decNoLoneSymbol hst)⟩
  · exact ⟨discardItem s, by simp only [inXfer, hst, drainItem]⟩

/-- Where output is pending it can be delivered: OIDX is within OBUF, and OCNT has room (10_state R29, R32). -/
theorem RunInvariant.outXfer_taken (h : RunInvariant s) (hvalid : outValid s = true) : ∃ t, outXfer s = .next t := by
  obtain ⟨hst, hlt⟩ := outValid_iff.1 hvalid
  have holen := h.olen_le
  have hcount := h.ocnt_le
  exact ⟨_, outXfer_eq_next (by omega) (by omega)⟩

/-- A channel has its valid and its ready up, or the core is in reset (40_frame_control R100). -/
def transferEnabled (s : State) : Prop :=
  s.rst = true ∨ (cmdReady s = true ∧ s.cmdIn ≠ []) ∨ (inReady s = true ∧ s.itemIn ≠ []) ∨
    (outValid s = true ∧ s.outReady = true) ∨ (rspValid s = true ∧ s.rspReady = true)

theorem transferEnabled_of_step (hstep : step s = .next t) : transferEnabled s := by
  obtain ⟨hr, -⟩ | ⟨-, hcmd | henc | hdec | hdrain | hout | hresp⟩ := step_cases hstep
  · exact .inl hr
  · obtain ⟨hst, w, ws, hin, -⟩ := hcmd
    exact .inr (.inl ⟨cmdReady_iff.2 hst, by simp [hin]⟩)
  · obtain ⟨hst, holen, hrem, x, xs, hin, -⟩ := henc
    exact .inr (.inr (.inl ⟨inReady_iff.2 (.inl ⟨.inl hst, holen, rem_pos hrem⟩), by simp [hin]⟩))
  · obtain ⟨hst, holen, hrem, x, xs, hin, -⟩ := hdec
    exact .inr (.inr (.inl ⟨inReady_iff.2 (.inl ⟨.inr hst, holen, rem_pos hrem⟩), by simp [hin]⟩))
  · obtain ⟨hst, hrem, x, xs, hin, -⟩ := hdrain
    exact .inr (.inr (.inl ⟨inReady_iff.2 (.inr ⟨hst, rem_pos hrem⟩), by simp [hin]⟩))
  · obtain ⟨hst, hlt, hready, -⟩ := hout
    exact .inr (.inr (.inr (.inl ⟨outValid_iff.2 ⟨hst, hlt⟩, hready⟩)))
  · obtain ⟨hst, hready, -⟩ := hresp
    exact .inr (.inr (.inr (.inr ⟨rspValid_iff.2 hst, hready⟩)))

/-- In the invariants the enabled transfer is always taken. -/
theorem RunInvariant.step_taken (h : RunInvariant s) (henabled : transferEnabled s) : ∃ t, step s = .next t := by
  cases hrst : s.rst with
  | true => exact ⟨_, step_eq_resetRegs hrst⟩
  | false =>
    obtain hr | ⟨hready, hin⟩ | ⟨hready, hin⟩ | ⟨hvalid, hready⟩ | ⟨hvalid, hready⟩ := henabled
    · simp [hrst] at hr
    · obtain ⟨w, ws, hin⟩ := List.exists_cons_of_ne_nil hin
      have hst := cmdReady_iff.1 hready
      rw [step_eq_exec hrst hst hin]
      exact exec_of_idle _ hst
    · obtain ⟨x, xs, hin⟩ := List.exists_cons_of_ne_nil hin
      rw [step_eq_inXfer hrst hready hin]
      exact h.after_popItem.inXfer_taken hready x
    · rw [step_eq_outXfer hrst hvalid hready]
      exact h.outXfer_taken hvalid
    · exact ⟨_, step_eq_rspXfer hrst (rspValid_iff.1 hvalid) hready⟩

/-- With no transfer enabled the core waits for the host: the faults of a waiting core are the four that name what is
waited for (40_frame_control R111; 93 U17, U19; log 4). -/
theorem RunInvariant.step_waits (h : RunInvariant s) (hwaits : ¬ transferEnabled s) :
    ∃ why, step s = .fault why ∧ why ≠ .unreachableState ∧ why ≠ .commandWaits := by
  simp only [transferEnabled, not_or, not_and, Bool.not_eq_true, ne_eq, not_not] at hwaits
  obtain ⟨hrst, hcmd, hitem, hout, hrsp⟩ := hwaits
  by_cases hst : s.st = .idle
  · exact ⟨.noCommand, by simp [step, enabledTransfer, fire, hrst, hst, hcmd (cmdReady_iff.2 hst)], by simp⟩
  · cases hready : inReady s with
    | true => exact ⟨.noInputItem, by simp [step, enabledTransfer, fire, hrst, hst, hready, hitem hready], by simp⟩
    | false =>
      cases hvalid : outValid s with
      | true =>
        exact ⟨.outputNotAccepted,
          by simp [step, enabledTransfer, fire, hrst, hst, hready, hvalid, hout hvalid], by simp⟩
      | false =>
        have hrspValid : rspValid s = true := by simpa [hready, hvalid] using h.some_flag hst
        exact ⟨.responseNotAccepted,
          by simp [step, enabledTransfer, fire, hrst, hready, hvalid, rspValid_iff.1 hrspValid, hrsp hrspValid],
          by simp⟩

/-- A step of a run is taken, or the core waits (40_frame_control R100). -/
theorem RunInvariant.step_outcome (h : RunInvariant s) :
    (∃ t, step s = .next t) ∨ ∃ why, step s = .fault why ∧ why ≠ .unreachableState ∧ why ≠ .commandWaits := by
  by_cases henabled : transferEnabled s
  · exact .inl (h.step_taken henabled)
  · exact .inr (h.step_waits henabled)

/-! The states of the runs (70 R233) -/

theorem runInvariant_reset : RunInvariant State.reset :=
  runInvariant_of_quiet (.inl rfl) ⟨rfl, rfl, rfl, rfl, rfl⟩ (Nat.zero_le 3) (Nat.zero_le _)

theorem errorDetail_reset : ErrorDetail State.reset :=
  errorDetail_of_ok rfl rfl (by simp [State.reset]) (by simp [State.reset])

theorem invariants_of_reachable (h : Reachable s) : RunInvariant s ∧ ErrorDetail s := by
  induction h with
  | reset => exact ⟨runInvariant_reset, errorDetail_reset⟩
  | step s t _ hstep ih => exact ⟨ih.1.after_step hstep, ih.2.after_step hstep⟩
  | host a s _ ih => exact ⟨ih.1.after_hostAct a, ih.2.after_hostAct a⟩

/-! Progress (40_frame_control R111, log 12) -/

theorem progressMeasure_of_busy (hst : s.st ≠ .idle) :
    progressMeasure s = 6 * s.rem.toNat + (s.olen.toNat - s.oidx.toNat) + 1 := by
  rw [progressMeasure, if_neg hst]

theorem progressMeasure_le (s : State) :
    progressMeasure s ≤ 6 * s.rem.toNat + (s.olen.toNat - s.oidx.toNat) + 1 := by
  rw [progressMeasure]
  split <;> omega

/-- An item counted off lowers the measure, whatever its acceptance makes pending: at most five outputs. -/
theorem progressMeasure_lt_of_item (hst : s.st ≠ .idle) (hrem : s.rem ≠ 0) (hpred : t.rem = s.rem - 1)
    (holen : t.olen.toNat ≤ 5) : progressMeasure t < progressMeasure s := by
  have hle := progressMeasure_le t
  have hcount := toNat_sub_one_add_one hrem
  rw [progressMeasure_of_busy hst]
  rw [hpred] at hle
  omega

/-- An output delivered lowers the measure by one. -/
theorem progressMeasure_lt_of_outXfer (hst : s.st ≠ .idle) (hvalid : s.oidx.toNat < s.olen.toNat)
    (hout : outXfer s = .next t) : progressMeasure t < progressMeasure s := by
  have hle := progressMeasure_le t
  rw [progressMeasure_of_busy hst]
  obtain ⟨_, -, ⟨-, rfl⟩ | ⟨hmore, rfl⟩⟩ := outXfer_cases hout
  · change _ ≤ 6 * s.rem.toNat + (0 - 0) + 1 at hle
    omega
  · have hoidx : (s.oidx + 1).toNat = s.oidx.toNat + 1 := by bv_omega
    change _ ≤ 6 * s.rem.toNat + (s.olen.toNat - (s.oidx + 1).toNat) + 1 at hle
    omega

end Sys2Proof.Machine

open Sys2Proof Sys2Proof.Machine

/-- Settles O29: in the reset state the datapath is quiet and STATUS is OK. -/
theorem invariantsHoldAtReset : Obligations.InvariantsHoldAtReset := ⟨runInvariant_reset, errorDetail_reset⟩

/-- Settles O30, by the transfer: each leads to a mode whose shape it establishes. -/
theorem everyStepKeepsTheInvariants : Obligations.EveryStepKeepsTheInvariants := fun _ _ h hstep => h.after_step hstep

/-- Settles O31, by the transfer: STATUS is written by acceptance and by the invalid symbol, each with its detail. -/
theorem everyStepKeepsTheErrorDetail : Obligations.EveryStepKeepsTheErrorDetail := fun _ _ h hstep =>
  h.after_step hstep

/-- Settles O32, by induction on the run; in the invariants a step is taken or waits for the host. -/
theorem runsStayInsideTheInvariants : Obligations.RunsStayInsideTheInvariants := by
  intro s hs
  obtain ⟨hrun, herror⟩ := invariants_of_reachable hs
  refine ⟨hrun, herror, hrun.ocnt_le, ?_⟩
  obtain ⟨t, hstep⟩ | ⟨why, hstep, hwhy, -⟩ := hrun.step_outcome
  · simp [hstep]
  · simpa [hstep] using hwhy

/-- Settles O25: an enabled transfer is taken, and with none enabled the core waits for the host. -/
theorem stepIsTakenExactlyWhenEnabled : Obligations.StepIsTakenExactlyWhenEnabled := by
  intro s h
  refine ⟨⟨fun ⟨t, hstep⟩ => transferEnabled_of_step hstep, h.step_taken⟩, ?_, ?_, ?_, h.some_flag⟩
  all_goals obtain ⟨t, hstep⟩ | ⟨why, hstep, hreach, hcommand⟩ := h.step_outcome
  · simp [hstep]
  · simpa [hstep] using hreach
  · simp [hstep]
  · simpa [hstep] using hcommand
  · simp [hstep]
  · simp [hstep]

/-- Settles O38, by the transfer: an item lowers the measure by 6 and makes at most 5 outputs pending, an output lowers
it by 1, and the response leads to IDLE. -/
theorem everyTransferMakesProgress : Obligations.EveryTransferMakesProgress := by
  intro s t h hrst hbusy hstep
  have holen := (h.after_step hstep).olen_le
  obtain ⟨hr, -⟩ | ⟨-, hcmd | henc | hdec | hdrain | hout | hresp⟩ := step_cases hstep
  · simp [hrst] at hr
  · exact absurd hcmd.1 hbusy
  · obtain ⟨-, -, hrem, x, xs, -, hitem⟩ := henc
    exact progressMeasure_lt_of_item hbusy hrem (encodeItem_counts hitem).2.1 holen
  · obtain ⟨-, -, hrem, x, xs, -, hitem⟩ := hdec
    exact progressMeasure_lt_of_item hbusy hrem (decodeItem_counts hitem).2.1 holen
  · obtain ⟨-, hrem, x, xs, -, rfl⟩ := hdrain
    exact progressMeasure_lt_of_item hbusy hrem rfl holen
  · obtain ⟨-, hvalid, -, hxfer⟩ := hout
    exact progressMeasure_lt_of_outXfer hbusy hvalid hxfer
  · obtain ⟨-, -, rfl⟩ := hresp
    rw [progressMeasure_of_busy hbusy]
    exact Nat.lt_succ_self _
end

section
/-! PROOFS. Which transfer writes OBUF, OCNT, STATUS and INFO (10_state R28, R30, R32), and that the host's timing
changes no step (40_frame_control R102, 70 R250). -/

namespace Sys2Proof.Machine

variable {s t : State}

/-! What an input item leaves (10_state R28, R30, R32) -/

theorem encodeItem_keeps_records {x : Byte} (h : encodeItem x s = .next t) :
    t.status = s.status ∧ t.info = s.info ∧ t.ocnt = s.ocnt ∧ t.itemOut = s.itemOut := by
  obtain ⟨-, ⟨-, -, rfl⟩ | ⟨-, rfl⟩⟩ := encodeItem_cases h <;> simp

theorem decodeItem_keeps_output {x : Byte} (h : decodeItem x s = .next t) :
    t.ocnt = s.ocnt ∧ t.itemOut = s.itemOut := by
  obtain ⟨-, rfl⟩ | ⟨-, -, ⟨-, -, -, rfl⟩ | ⟨-, -, rfl⟩⟩ := decodeItem_cases h <;> simp

/-- STATUS and INFO are written together, by an item that is no symbol (60_exceptions R207). -/
theorem decodeItem_status_cases {x : Byte} (h : decodeItem x s = .next t) :
    (t.status = s.status ∧ t.info = s.info) ∨
      (t.status = 2 ∧ (t.st = .drain ∨ t.st = .resp) ∧ isSymbol x = false ∧ t.info = x) := by
  obtain ⟨hx, rfl⟩ | ⟨-, -, ⟨-, -, -, rfl⟩ | ⟨-, -, rfl⟩⟩ := decodeItem_cases h
  · refine .inr ⟨rfl, ?_, hx, rfl⟩
    rw [errorEntry_st]
    split <;> simp
  · exact .inl ⟨rfl, rfl⟩
  · exact .inl ⟨rfl, rfl⟩

/-- A conversion's items fill OBUF from its first entry, and OLEN is their number (10_state R28, R29). -/
theorem loadOutput_writes {items : List Byte} (hpos : 1 ≤ items.length) (hmax : items.length ≤ 5) (s : State) :
    0 < (loadOutput items s).olen.toNat ∧ (loadOutput items s).oidx = 0 ∧
      ∀ (i : Nat) (h : i < 5), (loadOutput items s).olen.toNat ≤ i → (loadOutput items s).obuf[i] = s.obuf[i] := by
  have holen : (loadOutput items s).olen.toNat = items.length := toNat_ofNat_of_lt (by omega)
  exact ⟨by omega, rfl, fun i h hi => overwriteObuf_kept _ _ i h (by omega)⟩

theorem encodeItem_writes_obuf {x : Byte} (h : encodeItem x s = .next t) :
    t.obuf = s.obuf ∨
      (0 < t.olen.toNat ∧ t.oidx = 0 ∧ ∀ (i : Nat) (h : i < 5), t.olen.toNat ≤ i → t.obuf[i] = s.obuf[i]) := by
  obtain ⟨hgcnt, ⟨-, -, rfl⟩ | ⟨-, rfl⟩⟩ := encodeItem_cases h
  · exact .inr (loadOutput_writes (by simp) (by simp) (clearGroup (countItem s)))
  · exact .inl rfl

theorem decodeItem_writes_obuf {x : Byte} (h : decodeItem x s = .next t) :
    t.obuf = s.obuf ∨
      (0 < t.olen.toNat ∧ t.oidx = 0 ∧ ∀ (i : Nat) (h : i < 5), t.olen.toNat ≤ i → t.obuf[i] = s.obuf[i]) := by
  obtain ⟨-, rfl⟩ | ⟨-, hgcnt, ⟨-, -, hmin, rfl⟩ | ⟨-, -, rfl⟩⟩ := decodeItem_cases h
  · exact .inl rfl
  · refine .inr (loadOutput_writes ?_ ?_ (clearGroup (countItem s)))
    all_goals rw [groupBytes_length]; omega
  · exact .inl rfl

theorem outXfer_keeps_records (h : outXfer s = .next t) :
    t.status = s.status ∧ t.info = s.info ∧ t.obuf = s.obuf ∧ t.itemIn = s.itemIn := by
  obtain ⟨_, -, ⟨-, rfl⟩ | ⟨-, rfl⟩⟩ := outXfer_cases h <;> simp

/-- An output transfer delivers OBUF[OIDX] and counts it (10_state R32, 20_memory R57). -/
theorem outXfer_delivers (h : outXfer s = .next t) :
    t.ocnt.toNat = s.ocnt.toNat + 1 ∧ ∃ x, outData s = some x ∧ t.itemOut = s.itemOut ++ [x] := by
  obtain ⟨hidx, hbound, ⟨-, rfl⟩ | ⟨-, rfl⟩⟩ := outXfer_cases h <;>
    exact ⟨succ_ocnt_toNat hbound, _, outData_of_lt hidx, rfl⟩

theorem outValid_of_olen (holen : s.olen = 0) : outValid s = false := by
  simp [outValid, holen]

theorem popItem_itemIn_of_cons {x : Byte} {xs : List Byte} (hin : s.itemIn = x :: xs)
    (h : t.itemIn = (popItem s).itemIn) : s.itemIn = x :: t.itemIn := by
  simp [h, hin]

/-! The host's side changed behind what is presented (40_frame_control R102, 20_memory R64, 70 R250) -/

/-- A change of the host's side: of the two channels' contents and of the two ready signals. -/
structure HostChange where
  cmdIn : List CmdWord → List CmdWord
  itemIn : List Byte → List Byte
  outReady : Bool → Bool
  rspReady : Bool → Bool

/-- The change keeps the head of each channel, and lowers no ready signal that is up. -/
structure HostChange.Harmless (f : HostChange) : Prop where
  cmdIn_cons : ∀ w ws, f.cmdIn (w :: ws) = w :: f.cmdIn ws
  itemIn_cons : ∀ x xs, f.itemIn (x :: xs) = x :: f.itemIn xs
  outReady_true : f.outReady true = true
  rspReady_true : f.rspReady true = true

/-- The state with the host's side changed; reducible, so that a condition on the registers reads the same in both. -/
abbrev HostChange.apply (f : HostChange) (s : State) : State :=
  { s with
    cmdIn := f.cmdIn s.cmdIn, itemIn := f.itemIn s.itemIn, outReady := f.outReady s.outReady,
    rspReady := f.rspReady s.rspReady }

/-- A result with its next state changed. -/
def mapNext (g : State → State) : Result → Result
  | .next u => .next (g u)
  | .fault why => .fault why
  | .refused why => .refused why

/-! No transfer reads the host's side: the operations commute with a change of it -/

variable (f : HostChange)

theorem acceptCommand_apply (op : OpCode) (len : FrameLen) {k : State → State}
    (hk : ∀ u, k (f.apply u) = f.apply (k u)) :
    acceptCommand op len k (f.apply s) = mapNext f.apply (acceptCommand op len k s) := by
  have haccept : k (openFrame op len (f.apply s)) = f.apply (k (openFrame op len s)) := hk (openFrame op len s)
  simp only [acceptCommand, haccept]
  split <;> rfl

theorem decodeAcceptance_apply (len : FrameLen) (u : State) :
    decodeAcceptance len (f.apply u) = f.apply (decodeAcceptance len u) := by
  unfold decodeAcceptance
  split <;> rfl

theorem exec_apply (i : Instr) : exec i (f.apply s) = mapNext f.apply (exec i s) := by
  cases i with
  | encode len => exact acceptCommand_apply f _ _ fun _ => rfl
  | decode len => exact acceptCommand_apply f _ _ (decodeAcceptance_apply f len)
  | _ len => exact acceptCommand_apply f _ _ fun _ => rfl

theorem convertGroup_apply (p n : Nat) : convertGroup p n (f.apply s) = mapNext f.apply (convertGroup p n s) := by
  unfold convertGroup
  split <;> rfl

theorem completeGroup_apply (a L : Nat) : completeGroup a L (f.apply s) = mapNext f.apply (completeGroup a L s) := by
  unfold completeGroup
  split <;> rfl

theorem encodeItem_apply (x : Byte) : encodeItem x (f.apply s) = mapNext f.apply (encodeItem x s) := by
  simp only [encodeItem]
  split_ifs
  · exact convertGroup_apply (s := clearGroup (countItem s)) f _ _
  · rfl
  · rfl

theorem decodeItem_apply (x : Byte) : decodeItem x (f.apply s) = mapNext f.apply (decodeItem x s) := by
  simp only [decodeItem]
  split_ifs
  · rfl
  · exact completeGroup_apply (s := clearGroup (countItem s)) f _ _
  · rfl
  · rfl
  · rfl

theorem inXfer_apply (x : Byte) : inXfer x (f.apply s) = mapNext f.apply (inXfer x s) := by
  simp only [inXfer]
  cases s.st with
  | enc => exact encodeItem_apply f x
  | dec => exact decodeItem_apply f x
  | _ => rfl

theorem outXfer_apply : outXfer (f.apply s) = mapNext f.apply (outXfer s) := by
  simp only [outXfer]
  split_ifs <;> rfl

variable {f}

/-- A harmless change behind what is presented leaves the enabled transfer and its effect. -/
theorem HostChange.Harmless.step_apply (hf : f.Harmless) (henabled : transferEnabled s) :
    step (f.apply s) = mapNext f.apply (step s) := by
  cases hrst : s.rst with
  | true =>
    rw [step_eq_resetRegs hrst, step_eq_resetRegs (s := f.apply s) hrst]
    rfl
  | false =>
    obtain hr | ⟨hready, hin⟩ | ⟨hready, hin⟩ | ⟨hvalid, hready⟩ | ⟨hvalid, hready⟩ := henabled
    · simp [hrst] at hr
    · obtain ⟨w, ws, hin⟩ := List.exists_cons_of_ne_nil hin
      have hst := cmdReady_iff.1 hready
      have hin' : (f.apply s).cmdIn = w :: f.cmdIn ws := (congrArg f.cmdIn hin).trans (hf.cmdIn_cons w ws)
      have hpop : popCommand (f.apply s) = f.apply (popCommand s) := by
        rw [popCommand_of_cons hin, popCommand_of_cons hin']
      rw [step_eq_exec hrst hst hin, step_eq_exec (s := f.apply s) hrst hst hin', hpop, exec_apply]
    · obtain ⟨x, xs, hin⟩ := List.exists_cons_of_ne_nil hin
      have hin' : (f.apply s).itemIn = x :: f.itemIn xs := (congrArg f.itemIn hin).trans (hf.itemIn_cons x xs)
      have hpop : popItem (f.apply s) = f.apply (popItem s) := by
        rw [popItem_of_cons hin, popItem_of_cons hin']
      rw [step_eq_inXfer hrst hready hin, step_eq_inXfer (s := f.apply s) hrst hready hin', hpop, inXfer_apply]
    · have hready' : (f.apply s).outReady = true := (congrArg f.outReady hready).trans hf.outReady_true
      rw [step_eq_outXfer hrst hvalid hready, step_eq_outXfer (s := f.apply s) hrst hvalid hready', outXfer_apply]
    · have hst := rspValid_iff.1 hvalid
      have hready' : (f.apply s).rspReady = true := (congrArg f.rspReady hready).trans hf.rspReady_true
      rw [step_eq_rspXfer hrst hst hready, step_eq_rspXfer (s := f.apply s) hrst hst hready']
      rfl

theorem HostChange.Harmless.step_next (hf : f.Harmless) (hstep : step s = .next t) :
    step (f.apply s) = .next (f.apply t) := by
  rw [hf.step_apply (transferEnabled_of_step hstep), hstep, mapNext]

/-- More presented on both channels, behind what is there. -/
def moreBehind (ws : List CmdWord) (xs : List Byte) : HostChange := ⟨(· ++ ws), (· ++ xs), id, id⟩

theorem harmless_moreBehind (ws : List CmdWord) (xs : List Byte) : (moreBehind ws xs).Harmless :=
  ⟨fun _ _ => rfl, fun _ _ => rfl, rfl, rfl⟩

/-- Both ready signals raised. -/
def readyEarly : HostChange := ⟨id, id, fun _ => true, fun _ => true⟩

theorem harmless_readyEarly : readyEarly.Harmless := ⟨fun _ _ => rfl, fun _ _ => rfl, rfl, rfl⟩

end Sys2Proof.Machine

open Sys2Proof Sys2Proof.Machine

/-- Settles O26: in_ready asks for OLEN = 0, and the one transfer with output pending delivers an item. -/
theorem pendingOutputBlocksInput : Obligations.PendingOutputBlocksInput := by
  intro s hst holen
  have hpending : s.olen ≠ 0 := by bv_omega
  have hbusy : s.st ≠ .idle ∧ s.st ≠ .drain ∧ s.st ≠ .resp := by obtain h | h := hst <;> simp [h]
  refine ⟨?_, fun t hstep => ?_⟩
  · rw [← Bool.not_eq_true, inReady_iff]
    rintro (⟨-, hzero, -⟩ | ⟨hdrain, -⟩)
    · exact hpending hzero
    · exact hbusy.2.1 hdrain
  · obtain ⟨-, rfl⟩ | ⟨-, hcmd | henc | hdec | hdrain | hout | hresp⟩ := step_cases hstep
    · rfl
    · exact absurd hcmd.1 hbusy.1
    · exact absurd henc.2.1 hpending
    · exact absurd hdec.2.1 hpending
    · exact absurd hdrain.1 hbusy.2.1
    · obtain ⟨-, -, -, hxfer⟩ := hout
      exact (outXfer_takes_no_item hxfer).2.2
    · exact absurd hresp.1 hbusy.2.2

/-- Settles O34, by the transfer: a command clears OCNT, an output counts its item, any other step leaves both. -/
theorem ocntCountsTheOutputTransfers : Obligations.OcntCountsTheOutputTransfers := by
  intro s t hrst hstep
  obtain ⟨hr, -⟩ | ⟨-, hcmd | henc | hdec | hdrain | hout | hresp⟩ := step_cases hstep
  · simp [hrst] at hr
  · obtain ⟨hst, w, ws, -, hexec⟩ := hcmd
    obtain ⟨-, -, -, -, -, -, -, hocnt, -, -, -, -, -, -, hitemOut, -⟩ := exec_next hexec
    exact .inl ⟨hst, hocnt, hitemOut⟩
  · obtain ⟨hst, holen, -, x, xs, -, hitem⟩ := henc
    obtain ⟨-, -, hocnt, hitemOut⟩ := encodeItem_keeps_records hitem
    exact .inr (.inr ⟨by simp [hst], outValid_of_olen holen, hocnt, hitemOut⟩)
  · obtain ⟨hst, holen, -, x, xs, -, hitem⟩ := hdec
    obtain ⟨hocnt, hitemOut⟩ := decodeItem_keeps_output hitem
    exact .inr (.inr ⟨by simp [hst], outValid_of_olen holen, hocnt, hitemOut⟩)
  · obtain ⟨hst, -, x, xs, -, rfl⟩ := hdrain
    exact .inr (.inr ⟨by simp [hst], by simp [outValid, hst], rfl, rfl⟩)
  · obtain ⟨hst, hvalid, -, hxfer⟩ := hout
    exact .inr (.inl ⟨outValid_iff.2 ⟨hst, hvalid⟩, outXfer_delivers hxfer⟩)
  · obtain ⟨hst, -, rfl⟩ := hresp
    exact .inr (.inr ⟨by simp [hst], by simp [outValid, hst], rfl, rfl⟩)

/-- Settles O35, by the transfer: of the steps only a conversion loads OBUF, with as many items as OLEN then says. -/
theorem onlyConversionsWriteObuf : Obligations.OnlyConversionsWriteObuf := by
  intro s t hrst hstep
  obtain ⟨hr, -⟩ | ⟨-, hcmd | henc | hdec | hdrain | hout | hresp⟩ := step_cases hstep
  · simp [hrst] at hr
  · obtain ⟨-, w, ws, -, hexec⟩ := hcmd
    obtain ⟨-, -, -, -, -, -, -, -, hobuf, -⟩ := exec_next hexec
    exact .inl hobuf
  · obtain ⟨hst, holen, -, x, xs, hin, hitem⟩ := henc
    obtain ⟨-, -, htail⟩ := encodeItem_counts hitem
    exact (encodeItem_writes_obuf hitem).imp_right fun ⟨hpos, hoidx, hkept⟩ =>
      ⟨.inl hst, holen, hpos, hoidx, ⟨x, popItem_itemIn_of_cons hin htail⟩, hkept⟩
  · obtain ⟨hst, holen, -, x, xs, hin, hitem⟩ := hdec
    obtain ⟨-, -, htail⟩ := decodeItem_counts hitem
    exact (decodeItem_writes_obuf hitem).imp_right fun ⟨hpos, hoidx, hkept⟩ =>
      ⟨.inr hst, holen, hpos, hoidx, ⟨x, popItem_itemIn_of_cons hin htail⟩, hkept⟩
  · obtain ⟨-, -, x, xs, -, rfl⟩ := hdrain
    exact .inl rfl
  · obtain ⟨-, -, -, hxfer⟩ := hout
    exact .inl (outXfer_keeps_records hxfer).2.2.1
  · obtain ⟨-, -, rfl⟩ := hresp
    exact .inl rfl

/-- Settles O36, by the transfer: outside IDLE only the error entry of an item in DEC writes STATUS and INFO. -/
theorem statusIsWrittenByTheFirstErrorOnly : Obligations.StatusIsWrittenByTheFirstErrorOnly := by
  intro s t hrst hstep hbusy
  obtain ⟨hr, -⟩ | ⟨-, hcmd | henc | hdec | hdrain | hout | hresp⟩ := step_cases hstep
  · simp [hrst] at hr
  · exact absurd hcmd.1 hbusy
  · obtain ⟨-, -, -, x, xs, -, hitem⟩ := henc
    obtain ⟨hstatus, hinfo, -⟩ := encodeItem_keeps_records hitem
    exact .inl ⟨hstatus, hinfo⟩
  · obtain ⟨hst, -, -, x, xs, hin, hitem⟩ := hdec
    obtain ⟨-, -, htail⟩ := decodeItem_counts hitem
    exact (decodeItem_status_cases hitem).imp_right fun ⟨hstatus, hmode, hx, hinfo⟩ =>
      ⟨hst, hstatus, hmode, x, popItem_itemIn_of_cons hin htail, hx, hinfo⟩
  · obtain ⟨-, -, x, xs, -, rfl⟩ := hdrain
    exact .inl ⟨rfl, rfl⟩
  · obtain ⟨-, -, -, hxfer⟩ := hout
    obtain ⟨hstatus, hinfo, -⟩ := outXfer_keeps_records hxfer
    exact .inl ⟨hstatus, hinfo⟩
  · obtain ⟨-, -, rfl⟩ := hresp
    exact .inl ⟨rfl, rfl⟩

/-- Settles O39: both changes of the host's side keep what the enabled transfer reads of it. -/
theorem hostTimingChangesNoStep : Obligations.HostTimingChangesNoStep := fun _ _ hstep =>
  ⟨fun ws xs => (harmless_moreBehind ws xs).step_next hstep, harmless_readyEarly.step_next hstep⟩
end

section
/-! PROOFS. The ROMs as inverse tables and the alphabet check (20_memory R52, 30_encoding R81 to R83, 00_scope R8), and
the host: its reading of a response and the assembly of the pseudo-commands (30_encoding R76, R92; 60_exceptions
R209). -/

namespace Sys2Proof.Machine

/-! The ROMs on the alphabet (20_memory R52) -/

/-- Entry by entry, over the 85 characters. -/
theorem valLut_symLut {v : Nat} (h : v < 85) : valLut (symLut v) = 0x80 ||| BitVec.ofNat 8 v := by
  have htable : ∀ v < 85, valLut (symLut v) = 0x80 ||| BitVec.ofNat 8 v := by decide +kernel
  exact htable v h

@[simp] theorem symLut_symbolValue {c : Byte} (h : isSymbol c = true) : symLut (symbolValue c) = c := by
  rw [symLut, symRom_symbolValue_of_isSymbol h]

theorem symLut_mem_symRom {v : Nat} (h : v < 85) : symLut v ∈ symRom := by
  rw [symLut_of_lt v h]
  exact List.getElem_mem _

theorem isSymbol_symLut {v : Nat} (h : v < 85) : isSymbol (symLut v) = true :=
  isSymbol_of_mem_symRom (symLut_mem_symRom h)

/-- The character of value v has the value v: bits [6:0] of its VAL_ROM entry (20_memory R53). -/
@[simp] theorem symbolValue_symLut {v : Nat} (h : v < 85) : symbolValue (symLut v) = v := by
  have htable : ∀ v < 85, (0x80 ||| BitVec.ofNat 8 v : Byte).extractLsb' 0 7 = BitVec.ofNat 7 v := by decide +kernel
  rw [symbolValue, valLut_symLut h, htable v h, toNat_ofNat_of_lt (by omega)]

/-! The alphabet check (30_encoding R82, 00_scope R8) -/

theorem legal_iff (p : Config.Params) :
    p.legal = true ↔
      p.alphabet.length = 85 ∧ p.alphabet.Nodup ∧ (∀ c ∈ p.alphabet, 0x21 ≤ c.toNat ∧ c.toNat ≤ 0x7E) ∧
        p.padDigit = 84 := by
  simp [Config.Params.legal, Config.alphabetLegal, and_assoc]

theorem buildRoms_isSome (p : Config.Params) : (buildRoms p).isSome = p.legal := by
  unfold buildRoms
  split <;> simp_all

/-! The host's reading of a response (30_encoding R76) -/

/-- The status code alone says how a response is read, and INFO is its detail. -/
theorem verdict_rspWord (status : StatusCode) (info : Byte) (n : BitVec 32) :
    verdict (rspWord status info n) =
      if status = 0 then .ok else if status = 1 then .invalidLength else if status = 2 then .invalidSymbol info
      else if status = 3 then .illegalCommand info else .brokenCore status := by
  rw [verdict, rspStatus_rspWord, rspInfo_rspWord]
  fin_cases status <;> rfl

theorem verdict_rspWord_eq_ok {status : StatusCode} {info : Byte} {n : BitVec 32} :
    verdict (rspWord status info n) = .ok ↔ status = 0 := by
  rw [verdict_rspWord]
  split_ifs <;> simp_all

theorem verdict_rspWord_eq_brokenCore {status : StatusCode} {info : Byte} {n : BitVec 32} :
    verdict (rspWord status info n) = .brokenCore status ↔ 4 ≤ status.toNat := by
  have hcode : 4 ≤ status.toNat ↔ status ≠ 0 ∧ status ≠ 1 ∧ status ≠ 2 ∧ status ≠ 3 := by bv_omega
  rw [verdict_rspWord, hcode]
  split_ifs <;> simp_all

/-! The pseudo-commands as one frame (30_encoding R90 to R92) -/

/-- The word a host program's line stands for is OP above LEN (30_encoding R71, R90). -/
theorem ofNat_command_word {op : OpCode} {len : Nat} (h : len < 2 ^ 28) :
    BitVec.ofNat 32 (op.toNat * 2 ^ 28 + len) = op ++ BitVec.ofNat 28 len := by
  apply BitVec.eq_of_toNat_eq
  have hop := op.isLt
  rw [append_toNat, toNat_ofNat_of_lt h, toNat_ofNat_of_lt (by omega)]

theorem frame_wf_of_command {op : OpCode} {items : List Byte} (h : items.length < 2 ^ 28) :
    Frame.wf ⟨op ++ BitVec.ofNat 28 items.length, items⟩ = true := by
  simp only [Frame.wf, Frame.len, lenField_append, toNat_ofNat_of_lt h, decide_true]

/-- A command line and one data line behind it, both well formed, are one frame. -/
theorem assemble_of_one_frame {c d : Line} {op : OpCode} {items : List Byte} (hwf : c.wf = true ∧ d.wf = true)
    (hlen : items.length < 2 ^ 28) (hcommand : lineCommand c = some (op ++ BitVec.ofNat 28 items.length))
    (hdata : lineCommand d = none) (hitems : lineItems d = items) :
    assemble [c, d] = some [⟨op ++ BitVec.ofNat 28 items.length, items⟩] := by
  have hgather : gatherFrames [c, d] = ([], [⟨op ++ BitVec.ofNat 28 items.length, items⟩]) := by
    simp [gatherFrames, hcommand, hdata, hitems]
  simp [assemble, hgather, hwf, frame_wf_of_command hlen]

end Sys2Proof.Machine

open Sys2Proof Sys2Proof.Machine

/-- Settles O5: the tables are compared entry by entry, and a valid code is the character of its own value. -/
theorem romsAreInverse : Obligations.RomsAreInverse :=
  ⟨fun _ => valLut_symLut, fun _ => symLut_symbolValue,
    fun c h => ⟨symbolValue c, symbolValue_lt c, symLut_symbolValue h⟩,
    valRom_length, by decide +kernel, by decide +kernel⟩

/-- Settles O7, by evaluation over the 256 codes. -/
theorem codesOutsideTheAlphabet : Obligations.CodesOutsideTheAlphabet := by
  unfold Obligations.CodesOutsideTheAlphabet
  decide +kernel

/-- Settles O8: a ROM pair is built exactly for the legal parameters, and the core's own are evaluated. -/
theorem onlyALegalAlphabetBuildsAMachine : Obligations.OnlyALegalAlphabetBuildsAMachine :=
  ⟨fun p => by rw [buildRoms_isSome, legal_iff], by decide +kernel⟩

/-- Settles O54, by evaluation over the 256 codes. -/
theorem lastSymbolOfAGroupIsStable : Obligations.LastSymbolOfAGroupIsStable := by
  unfold Obligations.LastSymbolOfAGroupIsStable
  decide +kernel

/-- Settles O55: the verdict is a function of the status code, OK at 0 and a broken core from 4 up. -/
theorem onlyAnOkResponseYieldsAResult : Obligations.OnlyAnOkResponseYieldsAResult := by
  intro status info n out
  refine ⟨?_, verdict_rspWord_eq_brokenCore, ?_⟩
  · simp only [hostResult, verdict_rspWord_eq_ok]
  · rintro rfl
    rw [verdict_rspWord]
    rfl

/-- Settles O56: each pseudo-command expands to its command line and one data line, which are one frame. -/
theorem pseudoCommandsAssembleToOneFrame : Obligations.PseudoCommandsAssembleToOneFrame := by
  intro utf8 ns hlen
  have hlength : lengthWritable ns.length = true := decide_eq_true hlen
  have hitems : (ns.map (BitVec.ofNat 8)).length = ns.length := List.length_map _
  have hword (op : OpCode) :
      BitVec.ofNat 32 (op.toNat * 2 ^ 28 + ns.length) = op ++ BitVec.ofNat 28 (ns.map (BitVec.ofNat 8)).length := by
    rw [ofNat_command_word hlen, hitems]
  refine ⟨fun hrange => ?_, fun hrange => ?_⟩
  · have hbytes : Line.wf (.bytes ns) = true := by simpa [Line.wf, itemWritable] using hrange
    have hframe := assemble_of_one_frame (c := .encode ns.length) (op := 0x1) ⟨hlength, hbytes⟩ (hitems ▸ hlen)
      (congrArg some (hword 0x1)) rfl rfl
    rwa [hitems] at hframe
  · have htext : Line.wf (.text ns) = true := by simpa [Line.wf, charWritable] using hrange
    have hframe := assemble_of_one_frame (c := .decode ns.length) (op := 0x2) ⟨hlength, htext⟩ (hitems ▸ hlen)
      (congrArg some (hword 0x2)) rfl rfl
    rwa [hitems] at hframe
end

section
/-! PROOFS. The laws of Enc and Dec: the packed value and the symbols of a byte group, the padded value and the bytes of
a symbol group (41_encode R141 to R146, 42_decode R163 to R175). -/

namespace Sys2Proof.Machine

/-! The packed value of a byte group (41_encode R132, R141) -/

@[simp] theorem packGroup_nil : packGroup [] = 0 := rfl

theorem packGroup_concat (g : List Byte) (x : Byte) :
    packGroup (g ++ [x]) = packGroup g + x.toNat * 2 ^ (8 * (3 - g.length)) := by
  simp [packGroup, placeByte, List.mapIdx_concat]

/-- A group's value is below 2^32, and the places of the absent bytes are 0. -/
theorem packGroup_bounds {g : List Byte} (h : g.length ≤ 4) :
    packGroup g < 2 ^ 32 ∧ packGroup g % 2 ^ (8 * (4 - g.length)) = 0 := by
  induction g using List.reverseRecOn with
  | nil => decide
  | append_singleton g x ih =>
    rw [List.length_append, List.length_singleton] at h ⊢
    obtain ⟨hlt, htarget⟩ := ih (by omega)
    have hpack : packGroup (g ++ [x]) = packByte (packGroup g) g.length x := by
      rw [packGroup_concat, packByte, Nat.mod_eq_of_lt hlt]
    rw [hpack]
    refine ⟨packByte_lt_of_target_zero x (by omega) htarget, ?_⟩
    obtain hfull | hfree : g.length = 3 ∨ g.length ≤ 2 := by omega
    · rw [hfull, Nat.pow_zero, Nat.mod_one]
    · exact packByte_target_zero x hfree htarget

/-- An absent byte counts 0 (41_encode R132). -/
theorem packGroup_append_zeros (g : List Byte) (n : Nat) : packGroup (g ++ List.replicate n 0x00) = packGroup g := by
  induction n with
  | zero => simp
  | succ n ih => rw [List.replicate_succ', ← List.append_assoc, packGroup_concat, ih]; simp

/-! The unpacker (42_decode R163, R165) -/

theorem unpackBytes_eq (v : Nat) :
    unpackBytes v =
      [v % 2 ^ 32 / 2 ^ 24, v % 2 ^ 32 / 2 ^ 16, v % 2 ^ 32 / 2 ^ 8, v % 2 ^ 32].map (BitVec.ofNat 8) := by
  have hbyte (start : Nat) :
      (BitVec.ofNat 32 v).extractLsb' start 8 = BitVec.ofNat 8 (v % 2 ^ 32 / 2 ^ start) := by
    rw [BitVec.extractLsb', BitVec.toNat_ofNat, Nat.shiftRight_eq_div_pow]
  simp only [unpackBytes, hbyte, List.map, Nat.pow_zero, Nat.div_one]

@[simp] theorem unpackBytes_mod (v : Nat) : unpackBytes (v % 2 ^ 32) = unpackBytes v := by
  simp only [unpackBytes_eq, Nat.mod_mod]

/-- The leading bytes of a value below 2^32 whose other places are 0 pack to it. -/
theorem packGroup_take_unpackBytes {p n : Nat} (hp : p < 2 ^ 32) (hpos : 1 ≤ n) (hn : n ≤ 4)
    (hplaces : p % 2 ^ (8 * (4 - n)) = 0) : packGroup ((unpackBytes p).take n) = p := by
  rw [unpackBytes_eq, Nat.mod_eq_of_lt hp]
  interval_cases n <;> simp [packGroup, placeByte] at hplaces ⊢ <;> omega

/-- The unpacker reads a group back from any value that agrees with its packed value in the places of its bytes. -/
theorem take_unpackBytes {g : List Byte} {w : Nat} (hg : g.length ≤ 4) (hw : w < 2 ^ 32)
    (hplaces : w / 2 ^ (8 * (4 - g.length)) = packGroup g / 2 ^ (8 * (4 - g.length))) :
    (unpackBytes w).take g.length = g := by
  induction g using List.reverseRecOn with
  | nil => rfl
  | append_singleton g x ih =>
    rw [List.length_append, List.length_singleton] at hg hplaces ⊢
    have hx : x.toNat < 2 ^ 8 := x.isLt
    have hplace : 8 * (4 - g.length) = 8 * (3 - g.length) + 8 := by omega
    have htarget := (packGroup_bounds (g := g) (by omega)).2
    have hlast : 4 - (g.length + 1) = 3 - g.length := by omega
    have hw' : w / 2 ^ (8 * (3 - g.length)) = packGroup g / 2 ^ (8 * (3 - g.length)) + x.toNat := by
      rwa [packGroup_concat, hlast, Nat.add_mul_div_right _ _ (Nat.two_pow_pos _)] at hplaces
    have hclear : packGroup g / 2 ^ (8 * (3 - g.length)) % 2 ^ 8 = 0 := by
      rw [← Nat.mod_mul_right_div_self, ← Nat.pow_add, ← hplace, htarget, Nat.zero_div]
    have hhead : (unpackBytes w).take g.length = g := by
      refine ih (by omega) ?_
      rw [hplace, Nat.pow_add, ← Nat.div_div_eq_div_mul, ← Nat.div_div_eq_div_mul]
      omega
    have hbyte : BitVec.ofNat 8 (w / 2 ^ (8 * (3 - g.length))) = x := by
      apply BitVec.eq_of_toNat_eq
      rw [BitVec.toNat_ofNat]
      omega
    rw [List.take_add_one, hhead, unpackBytes_getElem? w (by omega), Nat.mod_eq_of_lt hw, hbyte]
    rfl

/-! The padded value of a symbol group (42_decode R163, R170) -/

/-- The digits accumulated by a group's symbols (42_decode R161). -/
def symbolsValue (g : List Byte) : Nat := g.foldl accumulate 0

@[simp] theorem symbolsValue_nil : symbolsValue [] = 0 := rfl

@[simp] theorem symbolsValue_concat (g : List Byte) (x : Byte) :
    symbolsValue (g ++ [x]) = accumulate (symbolsValue g) x := by
  simp [symbolsValue]

theorem symbolsValue_lt (g : List Byte) : symbolsValue g < 85 ^ g.length := by
  induction g using List.reverseRecOn with
  | nil => decide
  | append_singleton g x ih =>
    rw [symbolsValue_concat, List.length_append]
    exact accumulate_lt x ih

theorem groupDigit_eq_getD (g : List Byte) (i : Nat) : groupDigit g i = (g.map symbolValue).getD i 84 := by
  rw [groupDigit, List.getD_eq_getElem?_getD, List.getElem?_map]
  cases g[i]? <;> rfl

theorem sum_of_five (a b c d e : Nat) : [a, b, c, d, e].sum = a + b + c + d + e := by
  simp only [List.sum_cons, List.sum_nil]
  omega

theorem groupValue_eq (g : List Byte) :
    groupValue g = groupDigit g 0 * 85 ^ 4 + groupDigit g 1 * 85 ^ 3 + groupDigit g 2 * 85 ^ 2 +
      groupDigit g 3 * 85 ^ 1 + groupDigit g 4 * 85 ^ 0 :=
  sum_of_five _ _ _ _ _

/-- The sum over the five positions is what the datapath accumulates and pads. -/
theorem groupValue_eq_padValue {g : List Byte} (h : g.length ≤ 5) :
    groupValue g = padValue (symbolsValue g) g.length := by
  rw [padValue_eq]
  match g with
  | [] | [_] | [_, _] | [_, _, _] | [_, _, _, _] | [_, _, _, _, _] =>
    simp only [groupValue_eq, groupDigit_eq_getD, List.map_cons, List.map_nil, List.getD_cons_zero, List.getD_cons_succ,
      List.getD_nil, symbolsValue, List.foldl_cons, List.foldl_nil, accumulate, List.length_cons, List.length_nil,
      Config.radix]
    omega

theorem groupValue_le {g : List Byte} (h : g.length ≤ 5) : groupValue g ≤ 85 ^ 5 - 1 := by
  have hlt := symbolsValue_lt g
  have hpow : 85 ^ g.length * 85 ^ (5 - g.length) = 85 ^ 5 := by rw [← Nat.pow_add, Nat.add_sub_cancel' h]
  have hpos : 0 < 85 ^ (5 - g.length) := Nat.pow_pos (by decide)
  have hle := Nat.mul_le_mul_right (85 ^ (5 - g.length)) (Nat.succ_le_of_lt hlt)
  rw [Nat.succ_mul, hpow] at hle
  rw [groupValue_eq_padValue h, padValue_eq]
  omega

/-- The bytes of a group as the datapath makes them are those of Dec. -/
theorem groupBytes_symbolsValue {g : List Byte} (h : g.length ≤ 5) :
    groupBytes (symbolsValue g) g.length = decGroup g := by
  rw [groupBytes, decGroup, unpackBytes_mod, groupValue_eq_padValue h]

/-! The symbols of a byte group (41_encode R141 to R146) -/

theorem mem_groupSymbols {p n : Nat} {c : Byte} (h : c ∈ groupSymbols p n) : ∃ d < 85, c = symLut d := by
  rw [groupSymbols, List.mem_map] at h
  obtain ⟨d, hd, rfl⟩ := h
  exact ⟨d, digits85_lt p d (List.mem_of_mem_take hd), rfl⟩

theorem isSymbol_of_mem_groupSymbols {p n : Nat} {c : Byte} (h : c ∈ groupSymbols p n) : isSymbol c = true := by
  obtain ⟨d, hd, rfl⟩ := mem_groupSymbols h
  exact isSymbol_symLut hd

theorem isSymbol_of_mem_encGroup {g : List Byte} {c : Byte} (h : c ∈ encGroup g) : isSymbol c = true :=
  isSymbol_of_mem_groupSymbols h

/-- Enc and Dec go group by group: an induction on the frame's items, one group of `n` at a time. -/
theorem group_induction {P : List Byte → Prop} {n : Nat} (hn : 0 < n) (hnil : P [])
    (hgroup : ∀ x, x ≠ [] → P (x.drop n) → P x) (x : List Byte) : P x := by
  by_cases hx : x = []
  · rwa [hx]
  · exact hgroup x hx (group_induction hn hnil hgroup (x.drop n))
termination_by x.length
decreasing_by
  rw [List.length_drop]
  have := List.length_pos_iff.2 hx
  omega

theorem enc_of_ne_nil {b : List Byte} (h : b ≠ []) : enc b = encGroup (b.take 4) ++ enc (b.drop 4) := by
  match b with
  | [_] | [_, _] | [_, _, _] => simp [enc]
  | _ :: _ :: _ :: _ :: _ => rfl

theorem isSymbol_of_mem_enc {b : List Byte} {c : Byte} (h : c ∈ enc b) : isSymbol c = true := by
  induction b using group_induction (n := 4) (by decide) with
  | hnil => cases h
  | hgroup b hb ih =>
    rw [enc_of_ne_nil hb, List.mem_append] at h
    exact h.elim isSymbol_of_mem_encGroup ih

/-- The leading n + 1 of the five digits, accumulated, are p without its last 4 − n digits. -/
theorem symbolsValue_groupSymbols {p n : Nat} (hp : p < 2 ^ 32) (hpos : 1 ≤ n) (hn : n ≤ 4) :
    symbolsValue (groupSymbols p n) = p / 85 ^ (4 - n) := by
  have hdigit (m : Nat) : symbolValue (symLut (m % 85)) = m % 85 := symbolValue_symLut (Nat.mod_lt m (by decide))
  rw [groupSymbols, digits85_eq]
  interval_cases n <;> simp [symbolsValue, accumulate, hdigit] <;> omega

/-- The padding argument of 42_decode R172: with the lost digits filled by 84 a value whose low 8·k bits are 0 rises by
less than 2^(8·k), so its other places are kept. -/
theorem padded_places {p k : Nat} (hp : p < 2 ^ 32) (hk : k ≤ 3) (hplaces : p % 2 ^ (8 * k) = 0) :
    p / 85 ^ k * 85 ^ k + (85 ^ k - 1) < 2 ^ 32 ∧
      (p / 85 ^ k * 85 ^ k + (85 ^ k - 1)) / 2 ^ (8 * k) = p / 2 ^ (8 * k) := by
  interval_cases k <;> omega

/-- The padded value of a group's symbols (42_decode R172). -/
theorem groupValue_encGroup {g : List Byte} (hpos : 1 ≤ g.length) (hg : g.length ≤ 4) :
    groupValue (encGroup g) = packGroup g / 85 ^ (4 - g.length) * 85 ^ (4 - g.length) + (85 ^ (4 - g.length) - 1) := by
  have hlength := encGroup_length hg
  have hpad : 5 - (g.length + 1) = 4 - g.length := by omega
  rw [groupValue_eq_padValue (by omega), padValue_eq, hlength, hpad, encGroup,
    symbolsValue_groupSymbols (packGroup_bounds hg).1 hpos hg]

/-- What Enc emits has a padded value below 2^32, from which the group is read back (42_decode R172). -/
theorem groupValue_encGroup_places {g : List Byte} (hpos : 1 ≤ g.length) (hg : g.length ≤ 4) :
    groupValue (encGroup g) < 2 ^ 32 ∧
      groupValue (encGroup g) / 2 ^ (8 * (4 - g.length)) = packGroup g / 2 ^ (8 * (4 - g.length)) := by
  obtain ⟨hlt, hplaces⟩ := packGroup_bounds hg
  rw [groupValue_encGroup hpos hg]
  exact padded_places hlt (by omega) hplaces

theorem decGroup_encGroup {g : List Byte} (hpos : 1 ≤ g.length) (hg : g.length ≤ 4) : decGroup (encGroup g) = g := by
  obtain ⟨hlt, hplaces⟩ := groupValue_encGroup_places hpos hg
  rw [decGroup, unpackBytes_mod, encGroup_length hg, Nat.add_sub_cancel]
  exact take_unpackBytes hg hlt hplaces

/-- A symbol group below 2^32 is the encoding of its bytes (41_encode R146). -/
theorem encGroup_unpackBytes {g : List Byte} (hlength : g.length = 5) (hsymbols : ∀ c ∈ g, isSymbol c = true)
    (hvalue : groupValue g < 2 ^ 32) : encGroup (unpackBytes (groupValue g)) = g := by
  have hpack : packGroup (unpackBytes (groupValue g)) = groupValue g :=
    packGroup_take_unpackBytes hvalue (by decide) (by decide : 4 ≤ 4) (Nat.mod_one _)
  have hdigit (i : Nat) (hi : i < 5) : (g.map symbolValue).getD i 0 = groupDigit g i := by
    have hin : i < (g.map symbolValue).length := by simpa [hlength] using hi
    rw [groupDigit_eq_getD, List.getD_eq_getElem _ _ hin, List.getD_eq_getElem _ _ hin]
  have hdigits : g.map symbolValue = digits85 (groupValue g) := by
    refine eq_digits85_of_ofDigits hvalue (by simpa using hlength) (fun x hx => ?_) ?_
    · obtain ⟨c, -, rfl⟩ := List.mem_map.1 hx
      exact symbolValue_lt c
    · rw [ofDigits_reverse_of_length_five (by simpa using hlength), hdigit 0 (by decide), hdigit 1 (by decide),
        hdigit 2 (by decide), hdigit 3 (by decide), hdigit 4 (by decide), groupValue_eq, pow_one, pow_zero, mul_one]
  have hchars : (g.map symbolValue).map symLut = g := by
    rw [List.map_map]
    exact (List.map_congr_left fun c hc => symLut_symbolValue (hsymbols c hc)).trans (List.map_id g)
  rw [encGroup, groupSymbols, hpack, unpackBytes_length, ← hdigits, List.take_of_length_le (by simp [hlength]), hchars]

/-! Dec, group by group, whatever the length of the last group (42_decode R170) -/

/-- The first item of the frame's next group that is no symbol ends the loop. -/
theorem decLoop_of_invalid (out : List Byte) {x : List Byte} {c : Byte}
    (h : (x.take 5).find? (fun y => !isSymbol y) = some c) : decLoop out x = ⟨codeInvalidSymbol, c, out⟩ := by
  match x with
  | [] => simp at h
  | [_] | [_, _] | [_, _, _] | [_, _, _, _] | _ :: _ :: _ :: _ :: _ :: _ =>
    simp only [List.take_succ_cons, List.take_zero, List.take_nil] at h
    simp only [decLoop, h]

theorem decLoop_of_symbols (out : List Byte) {x : List Byte} (hx : x ≠ []) (h : ∀ c ∈ x.take 5, isSymbol c = true) :
    decLoop out x = decLoop (out ++ decGroup (x.take 5)) (x.drop 5) := by
  match x with
  | [_] | [_, _] | [_, _, _] | [_, _, _, _] => exact decLoop_of_short_group out (by simp) (by simp) h
  | _ :: _ :: _ :: _ :: _ :: rest => exact decLoop_of_full_group out rest h

theorem decLoop_nil (out : List Byte) : decLoop out [] = ⟨codeOk, 0x00, out⟩ := by rw [decLoop]

/-- What the loop has delivered so far comes first, and changes nothing else. -/
theorem decLoop_out (out x : List Byte) :
    decLoop out x = ⟨(decLoop [] x).status, (decLoop [] x).info, out ++ (decLoop [] x).out⟩ := by
  induction x using group_induction (n := 5) (by decide) generalizing out with
  | hnil => simp [decLoop_nil]
  | hgroup x hx ih =>
    cases hfind : (x.take 5).find? fun y => !isSymbol y with
    | some c => simp [decLoop_of_invalid _ hfind]
    | none =>
      have hsymbols : ∀ c ∈ x.take 5, isSymbol c = true := by simpa using hfind
      rw [decLoop_of_symbols out hx hsymbols, decLoop_of_symbols [] hx hsymbols, ih, ih ([] ++ _)]
      simp

theorem decLoop_append_group (out : List Byte) {g : List Byte} (rest : List Byte) (hg : g.length = 5)
    (h : ∀ c ∈ g, isSymbol c = true) : decLoop out (g ++ rest) = decLoop (out ++ decGroup g) rest := by
  have htake : (g ++ rest).take 5 = g := List.take_left' hg
  have hdrop : (g ++ rest).drop 5 = rest := List.drop_left' hg
  have hne : g ++ rest ≠ [] := by
    intro hnil
    simp [List.append_eq_nil_iff.1 hnil] at hg
  rw [decLoop_of_symbols out hne (htake.symm ▸ h), htake, hdrop]

/-- Whole groups of symbols are passed over (42_decode R173). -/
theorem decLoop_append (out : List Byte) {a : List Byte} (b : List Byte) (hwhole : a.length % 5 = 0)
    (h : ∀ c ∈ a, isSymbol c = true) : decLoop out (a ++ b) = decLoop (decLoop out a).out b := by
  induction a using group_induction (n := 5) (by decide) generalizing out with
  | hnil => rw [List.nil_append, decLoop_nil]
  | hgroup a ha ih =>
    have hpos := List.length_pos_iff.2 ha
    have hg : (a.take 5).length = 5 := by rw [List.length_take]; omega
    have hhead : ∀ c ∈ a.take 5, isSymbol c = true := fun c hc => h c (List.mem_of_mem_take hc)
    have hrest := ih (out ++ decGroup (a.take 5)) (by rw [List.length_drop]; omega)
      fun c hc => h c (List.mem_of_mem_drop hc)
    rw [← List.take_append_drop 5 a, List.append_assoc, decLoop_append_group out _ hg hhead, hrest,
      decLoop_append_group out _ hg hhead]

/-- Symbols alone are no error, and each group delivers its bytes (42_decode R171). -/
theorem decLoop_of_all_symbols (out : List Byte) {x : List Byte} (h : ∀ c ∈ x, isSymbol c = true) :
    (decLoop out x).status = codeOk ∧ (decLoop out x).info = 0x00 := by
  induction x using group_induction (n := 5) (by decide) generalizing out with
  | hnil => rw [decLoop_nil]; exact ⟨rfl, rfl⟩
  | hgroup x hx ih =>
    rw [decLoop_of_symbols out hx fun c hc => h c (List.mem_of_mem_take hc)]
    exact ih _ fun c hc => h c (List.mem_of_mem_drop hc)

theorem decLength_of_group {N : Nat} (hpos : 1 ≤ N) : min N 5 - 1 + decLength (N - 5) = decLength N := by
  simp only [decLength]
  split_ifs <;> omega

theorem decLoop_length_of_ok {out x : List Byte} (hok : (decLoop out x).status = codeOk) :
    (decLoop out x).out.length = out.length + decLength x.length := by
  induction x using group_induction (n := 5) (by decide) generalizing out with
  | hnil => simp [decLoop_nil, decLength]
  | hgroup x hx ih =>
    cases hfind : (x.take 5).find? fun y => !isSymbol y with
    | some c =>
      rw [decLoop_of_invalid _ hfind] at hok
      cases hok
    | none =>
      have hsymbols : ∀ c ∈ x.take 5, isSymbol c = true := by simpa using hfind
      rw [decLoop_of_symbols out hx hsymbols] at hok ⊢
      have hgroup : (decGroup (x.take 5)).length = min x.length 5 - 1 := by
        rw [decGroup_length (List.length_take_le 5 x), List.length_take, Nat.min_comm]
      rw [ih hok, List.length_append, List.length_drop, hgroup, Nat.add_assoc,
        decLength_of_group (List.length_pos_iff.2 hx)]

/-- An invalid item within the next group ends the loop, whatever follows it. -/
theorem decLoop_of_invalid_in_group (out : List Byte) {a : List Byte} {c : Byte} (b : List Byte) (hshort : a.length < 5)
    (h : ∀ y ∈ a, isSymbol y = true) (hc : isSymbol c = false) :
    decLoop out (a ++ c :: b) = ⟨codeInvalidSymbol, c, out⟩ := by
  apply decLoop_of_invalid
  obtain ⟨n, hn⟩ : ∃ n, 5 - a.length = n + 1 := ⟨4 - a.length, by omega⟩
  rw [List.take_append, List.take_of_length_le (by omega), hn, List.take_succ_cons, List.find?_append,
    find?_not_isSymbol_eq_none h]
  simp [hc]

/-- The first invalid item ends the loop behind the whole groups before it (42_decode R168). -/
theorem decLoop_of_first_invalid {a : List Byte} {c : Byte} (b : List Byte) (h : ∀ y ∈ a, isSymbol y = true)
    (hc : isSymbol c = false) :
    ∃ out, decLoop [] (a ++ c :: b) = ⟨codeInvalidSymbol, c, out⟩ ∧ out.length = 4 * (a.length / 5) := by
  obtain ⟨hwhole, htail⟩ : (a.take (5 * (a.length / 5))).length = 5 * (a.length / 5) ∧
      (a.drop (5 * (a.length / 5))).length < 5 := by
    rw [List.length_take, List.length_drop]
    omega
  have hhead : ∀ y ∈ a.take (5 * (a.length / 5)), isSymbol y = true := fun y hy => h y (List.mem_of_mem_take hy)
  refine ⟨(decLoop [] (a.take (5 * (a.length / 5)))).out, ?_, ?_⟩
  · conv_lhs => rw [← List.take_append_drop (5 * (a.length / 5)) a, List.append_assoc]
    rw [decLoop_append [] _ (by omega) hhead]
    exact decLoop_of_invalid_in_group _ b htail (fun y hy => h y (List.mem_of_mem_drop hy)) hc
  · rw [decLoop_length_of_ok (decLoop_of_all_symbols [] hhead).1, hwhole]
    simp [decLength]

/-! Dec as its loop (42_decode R170) -/

theorem dec_of_lengthError {x : List Byte} (h : x.length % 5 = 1) : dec x = ⟨codeInvalidLength, 0x00, []⟩ := if_pos h

theorem dec_of_not_lengthError {x : List Byte} (h : x.length % 5 ≠ 1) : dec x = decLoop [] x := if_neg h

/-- 42_decode R172, in the loop: each group of the encoding gives its bytes back. -/
theorem decLoop_enc (out b : List Byte) : decLoop out (enc b) = ⟨codeOk, 0x00, out ++ b⟩ := by
  induction b using group_induction (n := 4) (by decide) generalizing out with
  | hnil => simp [enc, decLoop_nil]
  | hgroup b hb ih =>
    have hpos : 1 ≤ (b.take 4).length := by
      have := List.length_pos_iff.2 hb
      rw [List.length_take]
      omega
    have hmax : (b.take 4).length ≤ 4 := List.length_take_le 4 b
    have hlength := encGroup_length hmax
    have hsymbols : ∀ c ∈ encGroup (b.take 4), isSymbol c = true := fun c => isSymbol_of_mem_encGroup
    rw [enc_of_ne_nil hb]
    obtain hfull | hshort : (b.take 4).length = 4 ∨ b.length < 4 := by
      rw [List.length_take]
      omega
    · rw [decLoop_append_group out _ (by omega) hsymbols, decGroup_encGroup hpos hmax, ih, List.append_assoc,
        List.take_append_drop]
    · have hlast : b.take 4 = b := List.take_of_length_le (by omega)
      have hnone : enc (b.drop 4) = [] := by rw [List.drop_of_length_le (by omega)]; rfl
      rw [hnone, List.append_nil, decLoop_of_short_group out (by omega) (by rw [hlength, hlast]; omega) hsymbols,
        decGroup_encGroup hpos hmax, hlast]

theorem encLength_mod_five (N : Nat) : encLength N % 5 ≠ 1 := by
  simp only [encLength]
  split <;> omega

end Sys2Proof.Machine

open Sys2Proof Sys2Proof.Machine

/-- Settles O51: the length of an encoding is never 1 modulo 5, and the loop reads each group back, a short one by the
padding argument. -/
theorem decodeOfEncodeIsTheInput : Obligations.DecodeOfEncodeIsTheInput := by
  intro b
  have hlength : (enc b).length % 5 ≠ 1 := by rw [enc_length]; exact encLength_mod_five _
  exact (dec_of_not_lengthError hlength).trans (decLoop_enc [] b)

/-- Settles O28: the padded value is below 85^5, so less than twice 2^32, and w is its value modulo 2^32. -/
theorem overflowingGroupsWrap : Obligations.OverflowingGroupsWrap := by
  intro g hmin hmax hsymbols w
  have hle := groupValue_le hmax
  have hw : groupValue g % 2 ^ 32 = w := by
    simp only [w]
    split <;> omega
  have hlt : w < 2 ^ 32 := hw ▸ Nat.mod_lt _ (by decide)
  have hbyte (m : Nat) : BitVec.ofNat 8 (m % 256) = BitVec.ofNat 8 m := by
    apply BitVec.eq_of_toNat_eq
    simp
  refine ⟨by omega, hlt, ?_⟩
  rw [decGroup, hw, unpackBytes_eq, Nat.mod_eq_of_lt hlt]
  simp only [List.map_cons, List.map_nil, hbyte]

/-- Settles O45: whole groups of four come off the front. -/
theorem encIsCompositional : Obligations.EncIsCompositional := by
  intro a b hwhole
  induction a using group_induction (n := 4) (by decide) with
  | hnil => rfl
  | hgroup a ha ih =>
    have hfour : 4 ≤ a.length := by
      have := List.length_pos_iff.2 ha
      omega
    have hne : a ++ b ≠ [] := by simp [ha]
    rw [enc_of_ne_nil ha, enc_of_ne_nil hne, List.take_append_of_le_length hfour, List.drop_append_of_le_length hfour,
      ih (by rw [List.length_drop]; omega), List.append_assoc]

/-- Settles O46: every item is the character of a digit, and the first digit of a value below 2^32 is at most 82. -/
theorem encodedItemsAreAlphabetCodes : Obligations.EncodedItemsAreAlphabetCodes := by
  refine ⟨fun b c hc => ?_, fun g _ hmax => ?_⟩
  · have hsymbol := isSymbol_of_mem_enc hc
    exact ⟨isSymbol_iff_mem_symRom.1 hsymbol, hsymbol⟩
  · have hhead := digits85_head_le (packGroup_bounds hmax).1
    rw [encGroup, groupSymbols]
    rw [digits85_eq, List.getD_cons_zero] at hhead
    rw [digits85_eq, List.take_succ_cons, List.map_cons]
    exact ⟨_, _, rfl, (symbolValue_symLut (by omega)).trans_le hhead⟩

/-- Settles O47: zero bytes leave the packed value, and the short group takes fewer of its digits. -/
theorem shortGroupEncodesAsALeadingPart : Obligations.ShortGroupEncodesAsALeadingPart := by
  intro g _ hmax
  have hfull : (g ++ List.replicate (4 - g.length) 0x00).length = 4 := by
    rw [List.length_append, List.length_replicate]
    omega
  rw [encGroup, encGroup, packGroup_append_zeros, hfull, groupSymbols, groupSymbols, ← List.map_take, List.take_take,
    Nat.min_eq_left (by omega)]

/-- Settles O48: the image of the encoder on a group, by the packed value; backwards the bytes are those of the
unpacked value. -/
theorem canonicalGroupsCharacterised : Obligations.CanonicalGroupsCharacterised := by
  refine ⟨fun g hlength hsymbols => ⟨?_, fun hvalue => ?_⟩, fun g hmin hmax => ⟨?_, ?_⟩⟩
  · rintro ⟨b, hpos, hb, rfl⟩
    exact Nat.le_pred_of_lt (groupValue_encGroup_places hpos hb).1
  · exact ⟨unpackBytes (groupValue g), by simp, by simp, encGroup_unpackBytes hlength hsymbols (by omega)⟩
  · rintro ⟨b, hpos, hb, rfl⟩
    obtain ⟨hlt, hplaces⟩ := packGroup_bounds hb
    refine ⟨packGroup b, hlt, ?_, ?_⟩
    · rw [encGroup_length hb]
      simpa using hplaces
    · rw [encGroup_length hb, encGroup, groupSymbols]
  · rintro ⟨p, hp, hplaces, hg⟩
    have hlength : ((unpackBytes p).take (g.length - 1)).length = g.length - 1 := by
      rw [List.length_take, unpackBytes_length]
      omega
    have hpack := packGroup_take_unpackBytes (n := g.length - 1) hp (by omega) (by omega) (by
      rwa [show 4 - (g.length - 1) = 5 - g.length by omega])
    refine ⟨(unpackBytes p).take (g.length - 1), by omega, by omega, ?_⟩
    rw [encGroup, groupSymbols, hpack, hlength, Nat.sub_add_cancel (by omega), ← hg]

/-- Settles O49: the length check comes first, then the loop ends at the first item that is no symbol. -/
theorem whichErrorADecodeReports : Obligations.WhichErrorADecodeReports := by
  refine fun x => ⟨fun hlength => ?_, fun hlength a c b hx ha hc => ?_, fun hlength hx => ?_⟩
  · rw [dec_of_lengthError hlength]
    exact ⟨rfl, rfl, rfl⟩
  · obtain ⟨out, hloop, hout⟩ := decLoop_of_first_invalid b ha hc
    rw [dec_of_not_lengthError hlength, hx, hloop]
    exact ⟨rfl, rfl, hout⟩
  · rw [dec_of_not_lengthError hlength]
    exact decLoop_of_all_symbols [] hx

/-- Settles O50: in a loop that ends with OK every group delivers one byte less than its symbols. -/
theorem decodedLength : Obligations.DecodedLength := by
  intro x hlength hok
  rw [dec_of_not_lengthError hlength] at hok ⊢
  exact (decLoop_length_of_ok hok).trans (Nat.zero_add _)

/-- Settles O52: whole groups of symbols are passed over, and what they deliver comes first. -/
theorem decIsCompositional : Obligations.DecIsCompositional := by
  intro a b hwhole ha hb
  have hlength : (a ++ b).length % 5 = b.length % 5 := by
    rw [List.length_append]
    omega
  by_cases herror : b.length % 5 = 1
  · rw [dec_of_lengthError herror, dec_of_lengthError (hlength.trans herror)]
    exact ⟨rfl, fun hne => absurd herror hne⟩
  · rw [dec_of_not_lengthError (hlength ▸ herror), dec_of_not_lengthError herror, dec_of_not_lengthError (by omega),
      decLoop_append [] b hwhole ha, decLoop_out]
    exact ⟨rfl, fun _ => rfl⟩
end

section
/-! PROOFS. Whole frames: the run from the acceptance of a command to its response delivers what the frame function of
its operation says, for every frame and for a sequence of them (41_encode R141, 42_decode R170, 40_frame_control R110,
20_memory R63 and R64, 70 R251). -/

namespace Sys2Proof.Machine

variable {s t : State}

/-! Runs of several steps -/

theorem run_add {m n : Nat} (h : run m s = .next t) : run (m + n) s = run n t := by
  induction m generalizing s with
  | zero =>
    cases h
    rw [Nat.zero_add]
  | succ m ih =>
    rw [run] at h
    split at h
    · rename_i u hstep
      rw [Nat.succ_add, run_succ_of_step hstep]
      exact ih h
    · cases h
    · cases h

/-! The output of a group (40_frame_control R104) -/

/-- The items of OBUF that still await delivery (10_state R28, R29). -/
def pendingItems (s : State) : List Byte := (s.obuf.toList.take s.olen.toNat).drop s.oidx.toNat

/-- The state after the delivery of all pending items: OLEN and OIDX are 0 again, and the frame's last group moves ST to
RESP (40_frame_control R104). -/
def deliverItems (items : List Byte) (s : State) : State :=
  { s with
    itemOut := s.itemOut ++ items, ocnt := s.ocnt + BitVec.ofNat 32 items.length, olen := 0, oidx := 0,
    st := if s.rem = 0 then .resp else s.st }

theorem add_ofNat_add_ofNat (n : BitVec 32) (a b : Nat) :
    n + BitVec.ofNat 32 a + BitVec.ofNat 32 b = n + BitVec.ofNat 32 (a + b) := by
  rw [BitVec.ofNat_add, BitVec.add_assoc]

theorem deliverItems_nextOutput (x : Byte) (items : List Byte) (s : State) :
    deliverItems items (nextOutput (give x s)) = deliverItems (x :: items) s := by
  have hitems : (nextOutput (give x s)).itemOut ++ items = s.itemOut ++ x :: items := by simp
  have hcount : (nextOutput (give x s)).ocnt + BitVec.ofNat 32 items.length =
      s.ocnt + BitVec.ofNat 32 (x :: items).length := by
    rw [List.length_cons, Nat.add_comm]
    exact add_ofNat_add_ofNat s.ocnt 1 items.length
  rw [deliverItems, hitems, hcount]
  rfl

/-- The head of the pending items is OBUF[OIDX]. -/
theorem pendingItems_cons {x : Byte} {items : List Byte} (h : pendingItems s = x :: items) :
    ∃ hidx : s.oidx.toNat < 5, s.oidx.toNat < s.olen.toNat ∧ s.obuf[s.oidx.toNat] = x ∧
      (s.obuf.toList.take s.olen.toNat).drop (s.oidx.toNat + 1) = items := by
  have hlt : s.oidx.toNat < (s.obuf.toList.take s.olen.toNat).length := by
    rw [← not_le]
    intro hle
    simp [pendingItems, List.drop_of_length_le hle] at h
  rw [pendingItems, List.drop_eq_getElem_cons hlt] at h
  simp only [List.length_take, Vector.length_toList, lt_min_iff] at hlt
  obtain ⟨hhead, htail⟩ := List.cons.inj h
  exact ⟨hlt.2, hlt.1, by simpa using hhead, htail⟩

theorem run_outputs {items : List Byte} (hne : items ≠ []) (hpending : pendingItems s = items) (hrst : s.rst = false)
    (hready : s.outReady = true) (hst : s.st = .enc ∨ s.st = .dec) (holen : s.olen.toNat ≤ 5)
    (hcount : s.ocnt.toNat + items.length < 2 ^ 32) : run items.length s = .next (deliverItems items s) := by
  induction items generalizing s with
  | nil => exact absurd rfl hne
  | cons x items ih =>
    obtain ⟨hidx, hlt, rfl, htail⟩ := pendingItems_cons hpending
    rw [List.length_cons] at hcount ⊢
    have hlength : s.olen.toNat - (s.oidx.toNat + 1) = items.length := by
      rw [← htail, List.length_drop, List.length_take, Vector.length_toList]
      omega
    have hstep : step s = outXfer s := step_eq_outXfer hrst (outValid_iff.2 ⟨hst, hlt⟩) hready
    rw [outXfer_eq_next hidx (by omega)] at hstep
    rw [run_succ_of_step hstep]
    by_cases hlast : s.oidx.toNat + 1 = s.olen.toNat
    · obtain rfl : items = [] := List.eq_nil_of_length_eq_zero (by omega)
      rw [if_pos hlast]
      rfl
    · have hmore : items ≠ [] := by
        rintro rfl
        rw [List.length_nil] at hlength
        omega
      have hoidx : (s.oidx + 1).toNat = s.oidx.toNat + 1 := by bv_omega
      have hnext : pendingItems (nextOutput (give s.obuf[s.oidx.toNat] s)) = items := by
        rw [pendingItems, nextOutput_oidx, give_oidx, hoidx]
        exact htail
      have hcount' : (nextOutput (give s.obuf[s.oidx.toNat] s)).ocnt.toNat + items.length < 2 ^ 32 := by
        rw [nextOutput_ocnt, give_ocnt, succ_ocnt_toNat (by omega)]
        omega
      rw [if_neg hlast, ih hmore hnext hrst hready hst holen hcount']
      exact congrArg _ (deliverItems_nextOutput _ _ s)

theorem pendingItems_loadOutput {items : List Byte} (hmax : items.length ≤ 5) (s : State) :
    pendingItems (loadOutput items s) = items := by
  have holen : (loadOutput items s).olen.toNat = items.length := toNat_ofNat_of_lt (by omega)
  rw [pendingItems, holen, loadOutput_oidx, loadOutput_obuf]
  apply List.ext_getElem
  · simp [hmax]
  · intro i _ hi
    simp [overwriteObuf, hi]

theorem run_loadOutput {items : List Byte} (hpos : 1 ≤ items.length) (hmax : items.length ≤ 5) (hrst : s.rst = false)
    (hready : s.outReady = true) (hst : s.st = .enc ∨ s.st = .dec) (hcount : s.ocnt.toNat + items.length < 2 ^ 32) :
    run items.length (loadOutput items s) = .next (deliverItems items (loadOutput items s)) := by
  have holen : (loadOutput items s).olen.toNat = items.length := toNat_ofNat_of_lt (by omega)
  exact run_outputs (List.ne_nil_of_length_pos hpos) (pendingItems_loadOutput hmax s) hrst hready hst (by omega) hcount

/-! A frame from any point of its run to its response -/

/-- The state after the response of a frame that ends with `r`: what it delivered from `s` on, its status and detail,
and a quiet datapath (40_frame_control R104, R106). OBUF holds whatever the last conversion left (93 U4). -/
def finishFrame (r : FrameResult) (obuf : Vector Byte 5) (xs : List Byte) (s : State) : State :=
  { s with
    st := .idle, rem := 0, acc := 0, gcnt := 0, obuf := obuf, olen := 0, oidx := 0, status := r.status, info := r.info,
    ocnt := s.ocnt + BitVec.ofNat 32 r.out.length, itemIn := xs, itemOut := s.itemOut ++ r.out,
    rspOut := s.rspOut ++ [rspWord r.status r.info (s.ocnt + BitVec.ofNat 32 r.out.length)] }

/-- A frame without an error, open in `mode` with the items `p` of its group taken (`value p` in ACC), `y` still to come
and `xs` behind them; with nothing to come it is in RESP (10_state R37 items 2, 4 and 5). -/
structure FrameOpen (mode : Mode) (value : List Byte → Nat) (p y xs : List Byte) (s : State) : Prop where
  eager : EagerHost s
  st : s.st = if y = [] then .resp else mode
  status : s.status = codeOk ∧ s.info = 0x00
  acc : s.acc.toNat = value p
  gcnt : s.gcnt.toNat = p.length
  quiet : s.olen = 0 ∧ s.oidx = 0
  rem : s.rem.toNat = y.length
  itemIn : s.itemIn = y ++ xs

variable {mode : Mode} {value : List Byte → Nat} {p y xs : List Byte} {x : Byte}

/-- With no item to come the response is delivered, and the frame has delivered nothing more. -/
theorem FrameOpen.finish (h : FrameOpen mode value [] [] xs s) (hvalue : value [] = 0) :
    run 1 s = .next (finishFrame ⟨codeOk, 0x00, []⟩ s.obuf xs s) := by
  obtain ⟨⟨hrst, -, hready⟩, hst, ⟨hstatus, hinfo⟩, hacc, hgcnt, ⟨holen, hoidx⟩, hrem, hitemIn⟩ := h
  have hacc : s.acc = 0 := BitVec.eq_of_toNat_eq (hacc.trans hvalue)
  have hgcnt : s.gcnt = 0 := BitVec.eq_of_toNat_eq hgcnt
  have hrem : s.rem = 0 := BitVec.eq_of_toNat_eq hrem
  have hstep : step s = .next (deliverResponse s) := step_eq_rspXfer hrst (hst.trans (if_pos rfl)) hready
  have hitemIn : xs = s.itemIn := hitemIn.symm
  rw [run_succ_of_step hstep, run]
  simp [finishFrame, deliverResponse, rspData, hstatus, hinfo, hacc, hgcnt, hrem, holen, hoidx, hitemIn]

theorem FrameOpen.rem_ne_zero (h : FrameOpen mode value p (x :: y) xs s) : s.rem ≠ 0 := by
  intro hzero
  have hrem := h.rem
  simp [hzero] at hrem

theorem FrameOpen.last_iff (h : FrameOpen mode value p (x :: y) xs s) : s.rem = 1 ↔ y = [] := by
  rw [rem_eq_one_iff, h.rem, List.length_cons, ← List.length_eq_zero_iff]
  omega

theorem FrameOpen.rem_countItem (h : FrameOpen mode value p (x :: y) xs s) : (s.rem - 1).toNat = y.length := by
  rw [rem_sub_one_toNat h.rem_ne_zero, h.rem, List.length_cons, Nat.add_sub_cancel]

/-- With an item to come the next step takes it. -/
theorem FrameOpen.step_eq (h : FrameOpen mode value p (x :: y) xs s) (hmode : mode = .enc ∨ mode = .dec) :
    s.st = mode ∧ step s = inXfer x { s with itemIn := y ++ xs } := by
  have hst : s.st = mode := h.st.trans (if_neg (List.cons_ne_nil x y))
  have hready : inReady s = true := inReady_iff.2 (.inl ⟨hst ▸ hmode, h.quiet.1, rem_pos h.rem_ne_zero⟩)
  exact ⟨hst, by rw [step_eq_inXfer h.eager.1 hready h.itemIn, popItem_of_cons h.itemIn]; rfl⟩

/-- The item joins the open group. -/
theorem FrameOpen.after_hold (h : FrameOpen mode value p (x :: y) xs s) (hy : y ≠ []) (hgcnt : p.length + 1 < 8)
    (hfits : value (p ++ [x]) < 2 ^ 33) :
    FrameOpen mode value (p ++ [x]) y xs
      (holdGroup (value (p ++ [x])) (p.length + 1) (countItem { s with itemIn := y ++ xs })) where
  eager := h.eager
  st := (h.st.trans (if_neg (List.cons_ne_nil x y))).trans (if_neg hy).symm
  status := h.status
  acc := toNat_ofNat_of_lt hfits
  gcnt := (toNat_ofNat_of_lt hgcnt).trans (by simp)
  quiet := h.quiet
  rem := h.rem_countItem
  itemIn := rfl

/-- The state in which the group's item `x` has completed it to `items` and these are delivered. -/
def deliverGroup (items y : List Byte) (s : State) : State :=
  deliverItems items (loadOutput items (clearGroup (countItem { s with itemIn := y })))

/-- What was delivered earlier in the frame comes before what it delivers from there on. -/
theorem finishFrame_deliverGroup (items y : List Byte) (r : FrameResult) (obuf : Vector Byte 5) (s : State) :
    finishFrame r obuf xs (deliverGroup items y s) = finishFrame ⟨r.status, r.info, items ++ r.out⟩ obuf xs s := by
  have hitems : (deliverGroup items y s).itemOut ++ r.out = s.itemOut ++ (items ++ r.out) := List.append_assoc _ _ _
  have hcount : (deliverGroup items y s).ocnt + BitVec.ofNat 32 r.out.length =
      s.ocnt + BitVec.ofNat 32 (items ++ r.out).length := by
    rw [List.length_append]
    exact add_ofNat_add_ofNat s.ocnt items.length r.out.length
  rw [finishFrame, hitems, hcount]
  rfl

theorem deliverGroup_ocnt_add {items y : List Byte} {n : Nat} (h : s.ocnt.toNat + (items.length + n) < 2 ^ 32) :
    (deliverGroup items y s).ocnt.toNat + n = s.ocnt.toNat + (items.length + n) := by
  have hocnt : (deliverGroup items y s).ocnt.toNat = s.ocnt.toNat + items.length := by
    change (s.ocnt + BitVec.ofNat 32 items.length).toNat = _
    rw [BitVec.toNat_add, BitVec.toNat_ofNat]
    omega
  omega

/-- The item completes the group, whose items are delivered; the frame goes on with an empty group. -/
theorem FrameOpen.after_group (h : FrameOpen mode value p (x :: y) xs s) (hvalue : value [] = 0) (items : List Byte) :
    FrameOpen mode value [] y xs (deliverGroup items (y ++ xs) s) where
  eager := h.eager
  st := by
    have hst : s.st = mode := h.st.trans (if_neg (List.cons_ne_nil x y))
    have hleft : s.rem - 1 = 0 ↔ y = [] := sub_eq_zero.trans h.last_iff
    change (if s.rem - 1 = 0 then Mode.resp else s.st) = _
    simp only [hleft, hst]
  status := h.status
  acc := hvalue.symm
  gcnt := rfl
  quiet := ⟨rfl, rfl⟩
  rem := h.rem_countItem
  itemIn := rfl

/-- The run through a completed group: its item, then its output, then the rest of the frame. -/
theorem FrameOpen.run_group (h : FrameOpen mode value p (x :: y) xs s) (hmode : mode = .enc ∨ mode = .dec)
    {items : List Byte} (hitems : 1 ≤ items.length ∧ items.length ≤ 5) {r : FrameResult}
    (hcount : s.ocnt.toNat + (items ++ r.out).length < 2 ^ 32)
    (hstep : step s = .next (loadOutput items (clearGroup (countItem { s with itemIn := y ++ xs }))))
    (hrest : ∃ obuf, run (y.length + r.out.length + 1) (deliverGroup items (y ++ xs) s) =
      .next (finishFrame r obuf xs (deliverGroup items (y ++ xs) s))) :
    ∃ obuf, run ((x :: y).length + (items ++ r.out).length + 1) s =
      .next (finishFrame ⟨r.status, r.info, items ++ r.out⟩ obuf xs s) := by
  obtain ⟨obuf, hrest⟩ := hrest
  obtain ⟨hrst, hready, -⟩ := h.eager
  have hst : s.st = .enc ∨ s.st = .dec := (h.step_eq hmode).1 ▸ hmode
  rw [List.length_append] at hcount
  have hout := run_loadOutput (s := clearGroup (countItem { s with itemIn := y ++ xs })) hitems.1 hitems.2 hrst hready
    hst (lt_of_le_of_lt (by simp) hcount)
  have hsteps : (x :: y).length + (items ++ r.out).length + 1 = items.length + (y.length + r.out.length + 1) + 1 := by
    rw [List.length_cons, List.length_append]
    omega
  refine ⟨obuf, ?_⟩
  rw [hsteps, run_succ_of_step hstep, run_add hout]
  exact hrest.trans (congrArg _ (finishFrame_deliverGroup items (y ++ xs) r obuf s))

/-- The run through an item that joins the open group, then the rest of the frame. -/
theorem run_hold {v n k : Nat} {ys : List Byte} {r : FrameResult}
    (hstep : step s = .next (holdGroup v n (countItem { s with itemIn := ys })))
    (hrest : ∃ obuf, run (y.length + k + 1) (holdGroup v n (countItem { s with itemIn := ys })) =
      .next (finishFrame r obuf xs (holdGroup v n (countItem { s with itemIn := ys })))) :
    ∃ obuf, run ((x :: y).length + k + 1) s = .next (finishFrame r obuf xs s) := by
  obtain ⟨obuf, hrest⟩ := hrest
  have hsteps : (x :: y).length + k + 1 = y.length + k + 1 + 1 := by
    rw [List.length_cons]
    omega
  refine ⟨obuf, ?_⟩
  rw [hsteps, run_succ_of_step hstep]
  exact hrest

/-! An ENCODE frame (41_encode R131 to R141) -/

theorem packByte_packGroup {g : List Byte} (hg : g.length ≤ 4) (x : Byte) :
    packByte (packGroup g) g.length x = packGroup (g ++ [x]) := by
  rw [packGroup_concat, packByte, Nat.mod_eq_of_lt (packGroup_bounds hg).1]

theorem enc_append_group {g rest : List Byte} (hpos : 1 ≤ g.length) (hmax : g.length ≤ 4)
    (hlast : g.length = 4 ∨ rest = []) : enc (g ++ rest) = encGroup g ++ enc rest := by
  have hgroup : enc g = encGroup g := by
    rw [enc_of_ne_nil (List.ne_nil_of_length_pos hpos), List.take_of_length_le hmax, List.drop_of_length_le hmax]
    exact List.append_nil _
  obtain hfull | rfl := hlast
  · rw [encIsCompositional g rest (by omega), hgroup]
  · rw [List.append_nil, hgroup]
    exact (List.append_nil _).symm

/-- From any point of an ENCODE frame its remaining bytes are encoded with those of the open group. -/
theorem run_encode_frame (h : FrameOpen .enc packGroup p y xs s) (hp : p.length ≤ 3) (hnil : y = [] → p = [])
    (hcount : s.ocnt.toNat + (enc (p ++ y)).length < 2 ^ 32) :
    ∃ obuf, run (y.length + (enc (p ++ y)).length + 1) s =
      .next (finishFrame ⟨codeOk, 0x00, enc (p ++ y)⟩ obuf xs s) := by
  induction y generalizing p s with
  | nil =>
    obtain rfl := hnil rfl
    exact ⟨s.obuf, h.finish rfl⟩
  | cons x y ih =>
    have hlength : (p ++ [x]).length = p.length + 1 := by simp
    have hpack : packGroup (p ++ [x]) < 2 ^ 32 := (packGroup_bounds (by omega)).1
    have hvalue : packByte s.acc.toNat p.length x = packGroup (p ++ [x]) := by
      rw [h.acc, packByte_packGroup (by omega)]
    have hstep : step s = .next (
        if p.length + 1 = 4 ∨ y = [] then
          loadOutput (encGroup (p ++ [x])) (clearGroup (countItem { s with itemIn := y ++ xs }))
        else holdGroup (packGroup (p ++ [x])) (p.length + 1) (countItem { s with itemIn := y ++ xs })) := by
      obtain ⟨hst, hitem⟩ := h.step_eq (.inl rfl)
      have hnext := encodeItem_eq_next (s := { s with itemIn := y ++ xs }) (x := x) (h.gcnt ▸ hp)
        (by rwa [h.gcnt, hvalue])
      simp only [h.gcnt, hvalue, h.last_iff] at hnext
      rw [hitem, encGroup, hlength]
      simpa only [inXfer, hst] using hnext
    rw [List.append_cons] at hcount ⊢
    by_cases hlast : p.length + 1 = 4 ∨ y = []
    · rw [if_pos hlast] at hstep
      have hitems := encGroup_length (g := p ++ [x]) (by omega)
      rw [enc_append_group (by omega) (by omega) (hlength ▸ hlast)] at hcount ⊢
      refine h.run_group (r := ⟨codeOk, 0x00, enc y⟩) (.inl rfl) (by omega) hcount hstep ?_
      rw [List.length_append] at hcount
      exact ih (h.after_group rfl _) (by simp) (fun _ => rfl) ((deliverGroup_ocnt_add hcount).trans_lt hcount)
    · rw [if_neg hlast] at hstep
      obtain ⟨hmore, hy⟩ := not_or.1 hlast
      exact run_hold hstep (ih (h.after_hold hy (by omega) (by omega)) (by omega) (fun hnone => absurd hnone hy) hcount)

/-! A DECODE frame (42_decode R161 to R170) -/

theorem accumulate_symbolsValue (g : List Byte) (x : Byte) : accumulate (symbolsValue g) x = symbolsValue (g ++ [x]) :=
  (symbolsValue_concat g x).symm

/-- The state in which an item that is no symbol has failed the frame runs to the response with the rest discarded. -/
theorem FrameOpen.run_invalid (h : FrameOpen .dec value p (x :: y) xs s) (hx : isSymbol x = false) :
    ∃ obuf, run ((x :: y).length + 0 + 1) s = .next (finishFrame ⟨codeInvalidSymbol, x, []⟩ obuf xs s) := by
  obtain ⟨hst, hitem⟩ := h.step_eq (.inr rfl)
  have hstep :
      step s = .next (errorEntry codeInvalidSymbol x (s.rem - 1) (countItem { s with itemIn := y ++ xs })) := by
    rw [hitem]
    simpa only [inXfer, hst] using decodeItem_of_not_isSymbol (s := { s with itemIn := y ++ xs }) hx
  have hdrain := run_failed_frame
    (s := errorEntry codeInvalidSymbol x (s.rem - 1) (countItem { s with itemIn := y ++ xs })) h.eager.1 h.eager.2.2 rfl
    h.rem_countItem.symm rfl
  refine ⟨s.obuf, ?_⟩
  rw [List.length_cons, Nat.add_zero, run_succ_of_step hstep, hdrain]
  obtain ⟨holen, hoidx⟩ := h.quiet
  simp [finishFrame, errorEntry, countItem, rspData, holen, hoidx]

/-- Dec's loop behind a group that ends the frame or is whole. -/
theorem decLoop_append_symbols {g rest : List Byte} (hpos : 1 ≤ g.length) (hmax : g.length ≤ 5)
    (hlast : g.length = 5 ∨ rest = []) (h : ∀ c ∈ g, isSymbol c = true) :
    decLoop [] (g ++ rest) =
      ⟨(decLoop [] rest).status, (decLoop [] rest).info, decGroup g ++ (decLoop [] rest).out⟩ := by
  have hgroup : decLoop [] (g ++ rest) = decLoop (decGroup g) rest := by
    obtain hfull | rfl := hlast
    · exact decLoop_append_group [] rest hfull h
    · have hhead : ∀ c ∈ g.take 5, isSymbol c = true := fun c hc => h c (List.mem_of_mem_take hc)
      rw [List.append_nil, decLoop_of_symbols [] (List.ne_nil_of_length_pos hpos) hhead,
        List.take_of_length_le hmax, List.drop_of_length_le hmax]
      rfl
  rw [hgroup, decLoop_out]

/-- From any point of a DECODE frame its remaining items are decoded with those of the open group. -/
theorem run_decode_frame (h : FrameOpen .dec symbolsValue p y xs s) (hp : p.length ≤ 4)
    (hsymbols : ∀ c ∈ p, isSymbol c = true) (hnil : y = [] → p = []) (hlone : (p.length + y.length) % 5 ≠ 1)
    (hcount : s.ocnt.toNat + (decLoop [] (p ++ y)).out.length < 2 ^ 32) :
    ∃ obuf, run (y.length + (decLoop [] (p ++ y)).out.length + 1) s =
      .next (finishFrame (decLoop [] (p ++ y)) obuf xs s) := by
  induction y generalizing p s with
  | nil =>
    obtain rfl := hnil rfl
    exact ⟨s.obuf, h.finish rfl⟩
  | cons x y ih =>
    cases hx : isSymbol x with
    | false =>
      rw [decLoop_of_invalid_in_group [] y (by omega) hsymbols hx]
      exact h.run_invalid hx
    | true =>
      have hlength : (p ++ [x]).length = p.length + 1 := by simp
      have hsymbols' : ∀ c ∈ p ++ [x], isSymbol c = true := by
        simpa [or_imp, forall_and, hx] using hsymbols
      have hvalue : accumulate s.acc.toNat x = symbolsValue (p ++ [x]) := by rw [h.acc, accumulate_symbolsValue]
      have hlt : symbolsValue (p ++ [x]) < 85 ^ (p.length + 1) := hlength ▸ symbolsValue_lt (p ++ [x])
      rw [List.length_cons] at hlone
      have hstep : step s = .next (
          if p.length + 1 = 5 ∨ y = [] then
            loadOutput (decGroup (p ++ [x])) (clearGroup (countItem { s with itemIn := y ++ xs }))
          else holdGroup (symbolsValue (p ++ [x])) (p.length + 1) (countItem { s with itemIn := y ++ xs })) := by
        obtain ⟨hst, hitem⟩ := h.step_eq (.inr rfl)
        have hnext := decodeItem_of_isSymbol (s := { s with itemIn := y ++ xs }) hx (h.gcnt ▸ hp)
          (by rw [h.acc, h.gcnt]; exact symbolsValue_lt p)
          (by rw [h.rem, h.gcnt, List.length_cons, Nat.add_comm]; exact hlone)
        simp only [h.gcnt, hvalue, h.last_iff] at hnext
        rw [hitem, ← groupBytes_symbolsValue (by omega), hlength]
        simpa only [inXfer, hst] using hnext
      rw [List.append_cons] at hcount ⊢
      by_cases hlast : p.length + 1 = 5 ∨ y = []
      · rw [if_pos hlast] at hstep
        have hpos : 1 ≤ p.length := by
          obtain hfull | rfl := hlast
          · omega
          · rw [List.length_nil] at hlone
            omega
        have hitems := decGroup_length (g := p ++ [x]) (by omega)
        rw [decLoop_append_symbols (by omega) (by omega) (hlength ▸ hlast) hsymbols'] at hcount ⊢
        refine h.run_group (r := decLoop [] y) (.inr rfl) (by omega) hcount hstep ?_
        rw [List.length_append] at hcount
        refine ih (h.after_group rfl _) (by simp) (by simp) (fun _ => rfl) ?_
          ((deliverGroup_ocnt_add hcount).trans_lt hcount)
        obtain hfull | rfl := hlast
        · rw [List.length_nil]
          omega
        · decide
      · rw [if_neg hlast] at hstep
        obtain ⟨hmore, hy⟩ := not_or.1 hlast
        have hfits : symbolsValue (p ++ [x]) < 2 ^ 33 :=
          calc symbolsValue (p ++ [x]) < 85 ^ (p.length + 1) := hlt
            _ ≤ 85 ^ 4 := Nat.pow_le_pow_right (by decide) (by omega)
            _ < 2 ^ 33 := by decide
        exact run_hold hstep (ih (h.after_hold hy (by omega) hfits) (by omega) hsymbols' (fun hnone => absurd hnone hy)
          (by rw [hlength]; omega) hcount)

/-! The whole frame, from its command (41_encode R140, 42_decode R166, 40_frame_control R110) -/

theorem decLoop_out_length_le (out x : List Byte) : (decLoop out x).out.length ≤ out.length + x.length := by
  induction x using group_induction (n := 5) (by decide) generalizing out with
  | hnil => simp [decLoop_nil]
  | hgroup x hx ih =>
    cases hfind : (x.take 5).find? fun y => !isSymbol y with
    | some c => simp [decLoop_of_invalid _ hfind]
    | none =>
      rw [decLoop_of_symbols out hx (by simpa using hfind)]
      have hrest := ih (out ++ decGroup (x.take 5))
      rw [List.length_append, decGroup_length (List.length_take_le 5 x), List.length_take, List.length_drop] at hrest
      omega

theorem frameResult_of_encode {f : Frame} (h : opField f.cmd = 0x1) : frameResult f = ⟨codeOk, 0x00, enc f.items⟩ := by
  rw [frameResult, decodeWord_of_encode h]

theorem frameResult_of_decode {f : Frame} (h : opField f.cmd = 0x2) : frameResult f = dec f.items := by
  rw [frameResult, decodeWord_of_decode h]

theorem frameResult_of_reserved {f : Frame} (hencode : opField f.cmd ≠ 0x1) (hdecode : opField f.cmd ≠ 0x2) :
    frameResult f = ⟨codeIllegalCommand, (opField f.cmd).zeroExtend 8, []⟩ := by
  rw [← opOf_decodeWord] at hencode hdecode ⊢
  rw [frameResult]
  split
  · exact absurd (by simp_all [opOf]) hencode
  · exact absurd (by simp_all [opOf]) hdecode
  · rfl

/-- A frame's command and items stand at the heads of the channels of an idle core with an eager host. -/
structure FrameOffered (f : Frame) (ws : List CmdWord) (xs : List Byte) (s : State) : Prop where
  wf : f.wf = true
  idle : s.st = .idle
  eager : EagerHost s
  cmdIn : s.cmdIn = f.cmd :: ws
  itemIn : s.itemIn = f.items ++ xs

/-- The state in which the frame's command is accepted, apart from its acceptance part (40_frame_control R101). -/
def accepted (f : Frame) (s : State) : State := openFrame (opField f.cmd) f.len (popCommand s)

section

variable {f : Frame} {ws : List CmdWord}

theorem FrameOffered.length (h : FrameOffered f ws xs s) : f.items.length = f.len.toNat := of_decide_eq_true h.wf

theorem FrameOffered.len_eq_zero_iff (h : FrameOffered f ws xs s) : f.len = 0 ↔ f.items = [] := by
  rw [← List.length_eq_zero_iff, h.length, ← BitVec.toNat_inj]
  rfl

/-- A frame that starts without an error is open with no group begun. -/
theorem FrameOffered.start (h : FrameOffered f ws xs s) (mode : Mode) (hvalue : value [] = 0) :
    FrameOpen mode value [] f.items xs (startFrame mode f.len (accepted f s)) where
  eager := h.eager
  st := by simp only [startFrame_st, h.len_eq_zero_iff]
  status := ⟨rfl, rfl⟩
  acc := hvalue.symm
  gcnt := rfl
  quiet := ⟨rfl, rfl⟩
  rem := h.length.symm
  itemIn := h.itemIn

/-- A frame with an error at acceptance delivers nothing, and its items are discarded (60_exceptions R207). -/
theorem FrameOffered.run_error (h : FrameOffered f ws xs s) (code : StatusCode) (info : Byte) :
    ∃ obuf, run (f.items.length + 0 + 1) (errorEntry code info f.len (accepted f s)) =
      .next (finishFrame ⟨code, info, []⟩ obuf xs (accepted f s)) := by
  have hdrain := run_failed_frame (s := errorEntry code info f.len (accepted f s)) h.eager.1 h.eager.2.2 rfl h.length
    h.itemIn
  refine ⟨s.obuf, hdrain.trans ?_⟩
  simp [finishFrame, errorEntry, accepted, openFrame, rspData]

/-- The acceptance of a frame's command, by its operation (40_frame_control R101). -/
theorem accepted_cases (hexec : exec (decodeWord f.cmd) (popCommand s) = .next t) :
    (opField f.cmd = 0x1 ∧ t = startFrame .enc f.len (accepted f s)) ∨
      (opField f.cmd = 0x2 ∧ f.len.toNat % 5 ≠ 1 ∧ t = startFrame .dec f.len (accepted f s)) ∨
      (opField f.cmd = 0x2 ∧ f.len.toNat % 5 = 1 ∧ t = errorEntry codeInvalidLength 0x00 f.len (accepted f s)) ∨
      (opField f.cmd ≠ 0x1 ∧ opField f.cmd ≠ 0x2 ∧
        t = errorEntry codeIllegalCommand ((opField f.cmd).zeroExtend 8) f.len (accepted f s)) := by
  have hcases := (exec_next_cases hexec).2
  rw [opOf_decodeWord, lenOf_decodeWord] at hcases
  obtain ⟨hop, rfl⟩ | ⟨hop, hlength, rfl⟩ | ⟨hop, hlength, rfl⟩ | ⟨hencode, hdecode, rfl⟩ := hcases
  · exact .inl ⟨hop, by rw [accepted, hop]; rfl⟩
  · exact .inr (.inl ⟨hop, hlength, by rw [accepted, hop]; rfl⟩)
  · exact .inr (.inr (.inl ⟨hop, hlength, by rw [accepted, hop]; rfl⟩))
  · exact .inr (.inr (.inr ⟨hencode, hdecode, rfl⟩))

/-- No frame delivers more items than OCNT can count (10_state R32, 41_encode R142). -/
theorem FrameOffered.out_length_le (h : FrameOffered f ws xs s) : (frameResult f).out.length ≤ 335544319 := by
  have hlen : f.items.length < 2 ^ 28 := h.length ▸ f.len.isLt
  by_cases hencode : opField f.cmd = 0x1
  · rw [frameResult_of_encode hencode, enc_length]
    exact encLength_le_largest hlen
  by_cases hdecode : opField f.cmd = 0x2
  · rw [frameResult_of_decode hdecode, dec]
    split
    · exact Nat.zero_le _
    · have hle := decLoop_out_length_le [] f.items
      rw [List.length_nil] at hle
      omega
  · rw [frameResult_of_reserved hencode hdecode]
    exact Nat.zero_le _

/-- The run of a whole frame from its acceptance on, by its operation. -/
theorem FrameOffered.run_accepted (h : FrameOffered f ws xs s)
    (hexec : exec (decodeWord f.cmd) (popCommand s) = .next t) :
    ∃ obuf, run (f.items.length + (frameResult f).out.length + 1) t =
      .next (finishFrame (frameResult f) obuf xs (accepted f s)) := by
  have hbound : 0 + (frameResult f).out.length < 2 ^ 32 := by
    have hle := h.out_length_le
    omega
  obtain ⟨hop, rfl⟩ | ⟨hop, hlength, rfl⟩ | ⟨hop, hlength, rfl⟩ | ⟨hencode, hdecode, rfl⟩ := accepted_cases hexec
  · rw [frameResult_of_encode hop] at hbound ⊢
    exact run_encode_frame (h.start .enc packGroup_nil) (Nat.zero_le 3) (fun _ => rfl) hbound
  · rw [← h.length] at hlength
    rw [frameResult_of_decode hop, dec_of_not_lengthError hlength] at hbound ⊢
    exact run_decode_frame (h.start .dec symbolsValue_nil) (Nat.zero_le 4) (by simp) (fun _ => rfl)
      (by simpa using hlength) hbound
  · rw [← h.length] at hlength
    rw [frameResult_of_decode hop, dec_of_lengthError hlength]
    exact h.run_error _ _
  · rw [frameResult_of_reserved hencode hdecode]
    exact h.run_error _ _

/-- What a whole frame leaves: its result delivered, its response given, a quiet datapath in IDLE, and what the host
presents behind it untouched. -/
structure FrameDelivered (f : Frame) (ws : List CmdWord) (xs : List Byte) (s t : State) : Prop where
  idle : t.st = .idle
  itemOut : t.itemOut = s.itemOut ++ (frameResult f).out
  rspOut : t.rspOut = s.rspOut ++ [(frameResult f).response]
  status : t.status = (frameResult f).status
  info : t.info = (frameResult f).info
  ocnt : t.ocnt.toNat = (frameResult f).out.length
  op : t.op = opField f.cmd
  quiet : Quiet t
  cmdIn : t.cmdIn = ws
  itemIn : t.itemIn = xs
  eager : EagerHost t

/-- OCNT is 0 at acceptance, so the response counts the frame's own items. -/
theorem FrameOffered.delivered (h : FrameOffered f ws xs s) (obuf : Vector Byte 5) :
    FrameDelivered f ws xs s (finishFrame (frameResult f) obuf xs (accepted f s)) := by
  have hcount : (accepted f s).ocnt + BitVec.ofNat 32 (frameResult f).out.length =
      BitVec.ofNat 32 (frameResult f).out.length := BitVec.zero_add _
  exact
    { idle := rfl
      itemOut := rfl
      rspOut := by rw [FrameResult.response, ← hcount]; rfl
      status := rfl
      info := rfl
      ocnt := by
        have hle := h.out_length_le
        change ((accepted f s).ocnt + BitVec.ofNat 32 (frameResult f).out.length).toNat = _
        rw [hcount, toNat_ofNat_of_lt (by omega)]
      op := rfl
      quiet := ⟨rfl, rfl, rfl, rfl, rfl⟩
      cmdIn := congrArg List.tail h.cmdIn
      itemIn := rfl
      eager := h.eager }

/-- A whole frame takes LEN + OCNT + 2 transfers (70 R251) and ends as its frame function says. -/
theorem FrameOffered.run_frame (h : FrameOffered f ws xs s) :
    ∃ t, run (frameTransfers f) s = .next t ∧ FrameDelivered f ws xs s t := by
  obtain ⟨t, hexec⟩ := exec_of_idle (s := popCommand s) (decodeWord f.cmd) h.idle
  have hstep : step s = .next t := (step_eq_exec h.eager.1 h.idle h.cmdIn).trans hexec
  obtain ⟨obuf, hrun⟩ := h.run_accepted hexec
  exact ⟨_, (run_succ_of_step hstep).trans hrun, h.delivered obuf⟩

/-- The frame whose command word the host writes for its items (30_encoding R90). -/
theorem frameOffered_of_written {op : OpCode} {items : List Byte} (hlen : items.length < 2 ^ 28) (hst : s.st = .idle)
    (heager : EagerHost s) (hcmd : s.cmdIn = BitVec.ofNat 32 (op.toNat * 2 ^ 28 + items.length) :: ws)
    (hin : s.itemIn = items ++ xs) : FrameOffered ⟨op ++ BitVec.ofNat 28 items.length, items⟩ ws xs s where
  wf := frame_wf_of_command hlen
  idle := hst
  eager := heager
  cmdIn := by rw [hcmd, ofNat_command_word hlen]
  itemIn := hin

end

/-- An OK response is the number of items delivered (30_encoding R75). -/
theorem response_of_ok {out : List Byte} (h : out.length < 2 ^ 32) :
    FrameResult.response ⟨codeOk, 0x00, out⟩ = BitVec.ofNat 64 out.length := by
  apply BitVec.eq_of_toNat_eq
  rw [FrameResult.response, rspWord_toNat]
  change 0 * 2 ^ 60 + 0 * 2 ^ 48 + (BitVec.ofNat 32 out.length).toNat = _
  rw [BitVec.toNat_ofNat, BitVec.toNat_ofNat]
  omega

end Sys2Proof.Machine

open Sys2Proof Sys2Proof.Machine

/-- Settles O40: the word written for ENCODE and its bytes are a frame whose result is Enc. -/
theorem encodeFrameDeliversEnc : Obligations.EncodeFrameDeliversEnc := by
  intro b s ws xs hlen hst heager hcmd hin
  have hoffered := frameOffered_of_written (op := 0x1) hlen hst heager hcmd hin
  have hresult := frameResult_of_encode (f := ⟨0x1 ++ BitVec.ofNat 28 b.length, b⟩) (opField_append _ _)
  have hle : (enc b).length ≤ 335544319 := (congrArg (·.out.length) hresult).symm.trans_le hoffered.out_length_le
  obtain ⟨t, hrun, h⟩ := hoffered.run_frame
  rw [frameTransfers, hresult] at hrun
  refine ⟨t, hrun, h.idle, ?_, ?_, ?_, ?_, ?_, ?_, h.quiet, h.cmdIn, h.itemIn, h.eager⟩
  · rw [h.itemOut, hresult]
  · rw [h.rspOut, hresult, response_of_ok (hle.trans_lt (by decide))]
  · rw [h.status, hresult]
  · rw [h.info, hresult]
  · rw [h.ocnt, hresult]
  · rw [h.op, opField_append]

/-- Settles O41: the word written for DECODE and its items are a frame whose result is Dec. -/
theorem decodeFrameDeliversDec : Obligations.DecodeFrameDeliversDec := by
  intro x s ws xs hlen hst heager hcmd hin
  have hoffered := frameOffered_of_written (op := 0x2) hlen hst heager hcmd hin
  have hresult := frameResult_of_decode (f := ⟨0x2 ++ BitVec.ofNat 28 x.length, x⟩) (opField_append _ _)
  obtain ⟨t, hrun, h⟩ := hoffered.run_frame
  rw [frameTransfers, hresult] at hrun
  refine ⟨t, hrun, h.idle, ?_, ?_, ?_, ?_, ?_, ?_, h.quiet, h.cmdIn, h.itemIn, h.eager⟩
  · rw [h.itemOut, hresult]
  · rw [h.rspOut, hresult, FrameResult.response]
  · rw [h.status, hresult]
  · rw [h.info, hresult]
  · rw [h.ocnt, hresult]
  · rw [h.op, opField_append]

/-- Settles O43, by induction on the frames: each leaves the next one at the heads of the channels. -/
theorem framesAreProcessedInOrder : Obligations.FramesAreProcessedInOrder := by
  intro fs s ws xs hwf hst heager hcmd hin
  induction fs generalizing s with
  | nil => exact ⟨s, rfl, hst, by simp, by simp, hcmd, hin, heager⟩
  | cons f fs ih =>
    rw [List.flatMap_cons, List.append_assoc] at hin
    have hoffered : FrameOffered f (fs.map (·.cmd) ++ ws) (fs.flatMap (·.items) ++ xs) s :=
      ⟨hwf f List.mem_cons_self, hst, heager, hcmd, hin⟩
    obtain ⟨t, hrun, h⟩ := hoffered.run_frame
    obtain ⟨u, hrest, hidle, hout, hrsp, hend⟩ :=
      ih t (fun g hg => hwf g (List.mem_cons_of_mem f hg)) h.idle h.eager h.cmdIn h.itemIn
    refine ⟨u, ?_, hidle, ?_, ?_, hend⟩
    · rw [List.map_cons, List.sum_cons, run_add hrun, hrest]
    · rw [hout, h.itemOut, List.flatMap_cons, List.append_assoc]
    · rw [hrsp, h.rspOut, List.map_cons, List.append_assoc, List.singleton_append]
end

section
/-! PROOFS. The run of a host program with its book: the invariant of a run, its end by the last response, and that the
run of a program ends after its frames and not before (40_frame_control R112, 20_memory R63 and R64, 70 R232). -/

namespace Sys2Proof.Machine

variable {s t : State}

/-! What the transfers inside a frame leave (40_frame_control R102 to R104, R107) -/

theorem exec_leaves_idle {i : Instr} (h : exec i s = .next t) : t.st ≠ .idle := by
  obtain ⟨-, ⟨-, rfl⟩ | ⟨-, -, rfl⟩ | ⟨-, -, rfl⟩ | ⟨-, -, rfl⟩⟩ := exec_next_cases h <;>
    simp only [startFrame_st, errorEntry_st] <;> split <;> simp

theorem inXfer_frame {x : Byte} (h : inXfer x s = .next t) :
    t.st ≠ .idle ∧ t.op = s.op ∧ t.rem = s.rem - 1 ∧ t.rst = s.rst ∧ t.cmdIn = s.cmdIn ∧ t.itemIn = s.itemIn ∧
      t.rspOut = s.rspOut := by
  cases hst : s.st with
  | enc =>
    simp only [inXfer, hst] at h
    obtain ⟨-, ⟨-, -, rfl⟩ | ⟨-, rfl⟩⟩ := encodeItem_cases h <;> simp [hst]
  | dec =>
    simp only [inXfer, hst] at h
    obtain ⟨-, rfl⟩ | ⟨-, -, ⟨-, -, -, rfl⟩ | ⟨-, -, rfl⟩⟩ := decodeItem_cases h
    · refine ⟨?_, rfl, rfl, rfl, rfl, rfl, rfl⟩
      rw [errorEntry_st]
      split <;> simp
    · simp [hst]
    · simp [hst]
  | drain =>
    simp only [inXfer, hst, drainItem] at h
    cases h
    exact ⟨discardItem_keeps_busy (by simp [hst]), rfl, rfl, rfl, rfl, rfl, rfl⟩
  | idle => simp [inXfer, hst] at h
  | resp => simp [inXfer, hst] at h

theorem outXfer_frame (hst : s.st = .enc ∨ s.st = .dec) (h : outXfer s = .next t) :
    t.st ≠ .idle ∧ t.op = s.op ∧ t.rem = s.rem ∧ t.rst = s.rst ∧ t.cmdIn = s.cmdIn ∧ t.itemIn = s.itemIn ∧
      t.rspOut = s.rspOut := by
  have hbusy : t.st ≠ .idle := by
    obtain hmode | hmode := (outXfer_keeps_control h).2
    · obtain hst | hst := hst <;> simp [hmode, hst]
    · simp [hmode]
  obtain ⟨_, -, ⟨-, rfl⟩ | ⟨-, rfl⟩⟩ := outXfer_cases h <;> exact ⟨hbusy, rfl, rfl, rfl, rfl, rfl, rfl⟩

/-! The book of a run, step by step -/

variable {r q : HostRun}

/-- The frames of the book, done and open, in the order of their commands. -/
def bookFrames (r : HostRun) : List Frame := r.done ++ r.opened.toList

theorem exists_opened (h : r.opened = none ↔ r.core.st = .idle) (hbusy : r.core.st ≠ .idle) :
    ∃ f, r.opened = some f :=
  Option.ne_none_iff_exists'.1 fun hnone => hbusy (h.1 hnone)

/-- A frame is open exactly outside IDLE, whatever state the run began in. -/
theorem openedOutsideIdle_of_advance (h : r.opened = none ↔ r.core.st = .idle) (hadv : r.advance = .next q) :
    q.opened = none ↔ q.core.st = .idle := by
  obtain ⟨-, rfl⟩ | ⟨-, hcmd | hin | hout | hrsp⟩ := advance_cases hadv
  · simp
  · obtain ⟨-, w, ws, -, hexec, hopened, -⟩ := hcmd
    simp [hopened, exec_leaves_idle hexec]
  · obtain ⟨hst, -, x, xs, -, hxfer, hopened, -⟩ := hin
    have hbusy : r.core.st ≠ .idle := by obtain h | h | h := hst <;> simp [h]
    simp [hopened, (inXfer_frame hxfer).1, h, hbusy]
  · obtain ⟨hst, hxfer, hopened, -⟩ := hout
    have hbusy : r.core.st ≠ .idle := by obtain h | h := hst <;> simp [h]
    simp [hopened, (outXfer_frame hst hxfer).1, h, hbusy]
  · obtain ⟨-, rfl⟩ := hrsp
    simp

/-- What a run from `r` to `q` without a reset leaves of the book: the commands and the items of its frames and those
still presented are the same sequences, every frame done is answered, and no frame is lost (20_memory R63, R64). -/
structure BookFollows (r q : HostRun) : Prop where
  openedOutsideIdle : q.opened = none ↔ q.core.st = .idle
  rst : q.core.rst = false
  commands : (bookFrames q).map (·.cmd) ++ q.core.cmdIn = (bookFrames r).map (·.cmd) ++ r.core.cmdIn
  items : (bookFrames q).flatMap (·.items) ++ q.core.itemIn = (bookFrames r).flatMap (·.items) ++ r.core.itemIn
  responses : q.done.length + r.core.rspOut.length = r.done.length + q.core.rspOut.length
  done : ∃ fs, q.done = r.done ++ fs
  frames : (bookFrames r).length ≤ (bookFrames q).length

theorem BookFollows.refl (h : r.opened = none ↔ r.core.st = .idle) (hrst : r.core.rst = false) : BookFollows r r :=
  ⟨h, hrst, rfl, rfl, rfl, ⟨[], (List.append_nil _).symm⟩, le_rfl⟩

theorem BookFollows.trans {p : HostRun} (h₁ : BookFollows p r) (h₂ : BookFollows r q) : BookFollows p q where
  openedOutsideIdle := h₂.openedOutsideIdle
  rst := h₂.rst
  commands := h₂.commands.trans h₁.commands
  items := h₂.items.trans h₁.items
  responses := by
    have hfirst := h₁.responses
    have hsecond := h₂.responses
    omega
  done := by
    obtain ⟨fs, hfs⟩ := h₁.done
    obtain ⟨gs, hgs⟩ := h₂.done
    exact ⟨fs ++ gs, by rw [hgs, hfs, List.append_assoc]⟩
  frames := h₁.frames.trans h₂.frames

theorem bookFollows_of_advance (h : r.opened = none ↔ r.core.st = .idle) (hrst : r.core.rst = false)
    (hadv : r.advance = .next q) : BookFollows r q := by
  have hiff := openedOutsideIdle_of_advance h hadv
  obtain ⟨hr, -⟩ | ⟨-, hcmd | hin | hout | hrsp⟩ := advance_cases hadv
  · simp [hrst] at hr
  · obtain ⟨hst, w, ws, hcmd, hexec, hopened, hdone⟩ := hcmd
    have hnone : r.opened = none := h.2 hst
    obtain ⟨-, -, -, -, -, -, -, -, -, hrst', hcmd', hitem', -, -, -, hrsp'⟩ := exec_next hexec
    exact
      { openedOutsideIdle := hiff
        rst := hrst'.trans hrst
        commands := by simp [bookFrames, hopened, hdone, hnone, hcmd', hcmd]
        items := by simp [bookFrames, hopened, hdone, hnone, hitem']
        responses := by simp [hdone, hrsp']
        done := ⟨[], by simp [hdone]⟩
        frames := by simp [bookFrames, hdone, hnone] }
  · obtain ⟨hst, -, x, xs, hin, hxfer, hopened, hdone⟩ := hin
    have hbusy : r.core.st ≠ .idle := by obtain h | h | h := hst <;> simp [h]
    obtain ⟨f, hf⟩ := exists_opened h hbusy
    obtain ⟨-, -, -, hrst', hcmd', hitem', hrsp'⟩ := inXfer_frame hxfer
    exact
      { openedOutsideIdle := hiff
        rst := hrst'.trans hrst
        commands := by simp [bookFrames, hopened, hdone, hf, hcmd']
        items := by simp [bookFrames, hopened, hdone, hf, hitem', hin]
        responses := by simp [hdone, hrsp']
        done := ⟨[], by simp [hdone]⟩
        frames := by simp [bookFrames, hopened, hdone, hf] }
  · obtain ⟨hst, hxfer, hopened, hdone⟩ := hout
    obtain ⟨-, -, -, hrst', hcmd', hitem', hrsp'⟩ := outXfer_frame hst hxfer
    exact
      { openedOutsideIdle := hiff
        rst := hrst'.trans hrst
        commands := by simp [bookFrames, hopened, hdone, hcmd']
        items := by simp [bookFrames, hopened, hdone, hitem']
        responses := by simp [hdone, hrsp']
        done := ⟨[], by simp [hdone]⟩
        frames := by simp [bookFrames, hopened, hdone] }
  · obtain ⟨hst, rfl⟩ := hrsp
    obtain ⟨f, hf⟩ := exists_opened h (by simp [hst])
    exact
      { openedOutsideIdle := hiff
        rst := hrst
        commands := by simp [bookFrames]
        items := by simp [bookFrames]
        responses := by
          change (r.done ++ r.opened.toList).length + _ = _ + (r.core.rspOut ++ [rspData r.core]).length
          rw [hf, List.length_append, List.length_append, Option.toList_some, List.length_singleton,
            List.length_singleton]
          omega
        done := ⟨_, rfl⟩
        frames := by simp [bookFrames] }

theorem bookFollows_of_advanceBy {n : Nat} (h : r.opened = none ↔ r.core.st = .idle) (hrst : r.core.rst = false)
    (hadv : r.advanceBy n = .next q) : BookFollows r q := by
  induction n generalizing r with
  | zero =>
    cases hadv
    exact .refl h hrst
  | succ n ih =>
    rw [HostRun.advanceBy] at hadv
    split at hadv
    · rename_i u hu
      have hfirst := bookFollows_of_advance h hrst hu
      exact hfirst.trans (ih hfirst.openedOutsideIdle hfirst.rst hadv)
    · cases hadv
    · cases hadv

theorem advanceBy_add {m n : Nat} (h : r.advanceBy m = .next q) : r.advanceBy (m + n) = q.advanceBy n := by
  induction m generalizing r with
  | zero =>
    cases h
    rw [Nat.zero_add]
  | succ m ih =>
    rw [Nat.succ_add, HostRun.advanceBy]
    rw [HostRun.advanceBy] at h
    split at h
    · rename_i u hu
      exact ih h
    · cases h
    · cases h

/-! The frames of a program in the book -/

variable {f : Frame} {fs : List Frame} {ws : List CmdWord} {xs : List Byte}

/-- The run of an offered frame enters it in the book with its own command and items. -/
theorem advanceBy_frame (h : FrameOffered f ws xs r.core) (hnone : r.opened = none) :
    ∃ t, r.advanceBy (frameTransfers f) = .next ⟨t, none, r.done ++ [f]⟩ ∧ FrameDelivered f ws xs r.core t := by
  obtain ⟨t, hrun, hdelivered⟩ := h.run_frame
  obtain ⟨q, hadv, rfl⟩ := advanceBy_of_run hrun
  have hbook := bookFollows_of_advanceBy (by simp [hnone, h.idle]) h.eager.1 hadv
  have hopened : q.opened = none := hbook.openedOutsideIdle.2 hdelivered.idle
  obtain ⟨gs, hgs⟩ := hbook.done
  have hone : gs.length = 1 := by
    have hresponses := hbook.responses
    rw [hgs, hdelivered.rspOut, List.length_append, List.length_append, List.length_singleton] at hresponses
    omega
  obtain ⟨g, rfl⟩ := List.length_eq_one_iff.1 hone
  have hcmd : g.cmd = f.cmd := by
    have hcommands := hbook.commands
    simp only [bookFrames, hgs, hopened, hnone, hdelivered.cmdIn, h.cmdIn] at hcommands
    simpa using hcommands
  have hitems : g.items = f.items := by
    have hitems := hbook.items
    simp only [bookFrames, hgs, hopened, hnone, hdelivered.itemIn, h.itemIn] at hitems
    simpa using hitems
  have hframe : g = f := by
    cases g
    cases f
    simp_all
  have hq : q = ⟨q.core, none, r.done ++ [f]⟩ := by rw [← hopened, ← hframe, ← hgs]
  exact ⟨q.core, by rw [hadv]; exact congrArg _ hq, hdelivered⟩

/-- What the frames of a program leave, the last one's registers among it. -/
structure ProgramDelivered (fs : List Frame) (s t : State) : Prop where
  idle : t.st = .idle
  itemOut : t.itemOut = s.itemOut ++ fs.flatMap fun f => (frameResult f).out
  rspOut : t.rspOut = s.rspOut ++ fs.map fun f => (frameResult f).response
  nil : fs = [] → t = s
  last : ∀ f, fs.getLast? = some f →
    t.op = opField f.cmd ∧ Quiet t ∧ t.status = (frameResult f).status ∧ t.info = (frameResult f).info ∧
      t.ocnt.toNat = (frameResult f).out.length

theorem advanceBy_program (hwf : ∀ f ∈ fs, f.wf = true) (hst : r.core.st = .idle) (heager : EagerHost r.core)
    (hcmd : r.core.cmdIn = fs.map (·.cmd) ++ ws) (hin : r.core.itemIn = fs.flatMap (·.items) ++ xs)
    (hnone : r.opened = none) :
    ∃ t, r.advanceBy (fs.map frameTransfers).sum = .next ⟨t, none, r.done ++ fs⟩ ∧ ProgramDelivered fs r.core t := by
  induction fs generalizing r with
  | nil =>
    have hr : r = ⟨r.core, none, r.done ++ []⟩ := by rw [← hnone, List.append_nil]
    exact ⟨r.core, congrArg _ hr, hst, by simp, by simp, fun _ => rfl, by simp⟩
  | cons f fs ih =>
    rw [List.flatMap_cons, List.append_assoc] at hin
    have hoffered : FrameOffered f (fs.map (·.cmd) ++ ws) (fs.flatMap (·.items) ++ xs) r.core :=
      ⟨hwf f List.mem_cons_self, hst, heager, hcmd, hin⟩
    obtain ⟨t, hadv, h⟩ := advanceBy_frame hoffered hnone
    obtain ⟨u, hrest, hu⟩ := ih (r := ⟨t, none, r.done ++ [f]⟩) (fun g hg => hwf g (List.mem_cons_of_mem f hg)) h.idle
      h.eager h.cmdIn h.itemIn rfl
    refine ⟨u, ?_, hu.idle, ?_, ?_, by simp, fun g hg => ?_⟩
    · rw [List.map_cons, List.sum_cons, advanceBy_add hadv, hrest, List.append_assoc, List.singleton_append]
    · rw [hu.itemOut, h.itemOut, List.flatMap_cons, List.append_assoc]
    · rw [hu.rspOut, h.rspOut, List.map_cons, List.append_assoc, List.singleton_append]
    · cases fs with
      | nil =>
        obtain rfl : f = g := by simpa using hg
        obtain rfl := hu.nil rfl
        exact ⟨h.op, h.quiet, h.status, h.info, h.ocnt⟩
      | cons f' fs => exact hu.last g (by rwa [List.getLast?_cons_cons] at hg)

/-- From a state in which a program has ended no further transfer leads to that again: the next command opens a frame
beyond the program's. -/
theorem not_ended_of_advanceBy_succ {p : List Frame} {n : Nat} (h : r.opened = none ↔ r.core.st = .idle)
    (hrst : r.core.rst = false) (hended : RunEnded p r) (hadv : r.advanceBy (n + 1) = .next q) : ¬ RunEnded p q := by
  obtain ⟨hnone, hdone⟩ := hended
  rintro ⟨hnone', hdone'⟩
  rw [HostRun.advanceBy] at hadv
  split at hadv
  · rename_i u hu
    have hfirst := bookFollows_of_advance h hrst hu
    have hframes := (bookFollows_of_advanceBy hfirst.openedOutsideIdle hfirst.rst hadv).frames
    have hidle := h.1 hnone
    obtain ⟨-, w, ws, -, -, hopened, hdone''⟩ | hin | hout | hrsp :=
      ((advance_cases hu).resolve_left (by simp [hrst])).2
    · simp only [bookFrames, hopened, hdone'', hnone', hdone', hdone, List.length_append] at hframes
      simp at hframes
    · simp [hidle] at hin
    · simp [hidle] at hout
    · simp [hidle] at hrsp
  · cases hadv
  · cases hadv

/-! The invariant of a run with its book (20_memory R64, R65) -/

theorem hostRunInvariant_start : HostRunInvariant (HostRun.start State.reset) where
  core := runInvariant_reset
  openedOutsideIdle := by simp [State.reset]
  openedOp := by simp
  openedItems := by simp
  doneWhole := by simp

theorem HostRunInvariant.after_act (h : HostRunInvariant r) (a : HostAct) : HostRunInvariant (r.act a) := by
  have hcore := h.core.after_hostAct a
  obtain ⟨-, hidle, hop, hitems, hdone⟩ := h
  cases a <;> exact ⟨hcore, hidle, hop, hitems, hdone⟩

theorem HostRunInvariant.after_advance (h : HostRunInvariant r) (hadv : r.advance = .next q) : HostRunInvariant q := by
  have hcore := h.core.after_step (advance_next.1 hadv).1
  have hidle := openedOutsideIdle_of_advance h.openedOutsideIdle hadv
  obtain ⟨-, rfl⟩ | ⟨-, hcmd | hin | hout | hrsp⟩ := advance_cases hadv
  · exact ⟨hcore, hidle, by simp, by simp, h.doneWhole⟩
  · obtain ⟨-, w, ws, -, hexec, hopened, hdone⟩ := hcmd
    obtain ⟨-, hop, hrem, -⟩ := exec_next hexec
    rw [opOf_decodeWord] at hop
    rw [lenOf_decodeWord] at hrem
    refine ⟨hcore, hidle, fun f hf => ?_, fun f hf => ?_, hdone ▸ h.doneWhole⟩
    all_goals obtain rfl : ⟨w, []⟩ = f := Option.some.inj (hopened.symm.trans hf)
    · exact hop
    · rw [hrem, List.length_nil, Nat.zero_add]
      rfl
  · obtain ⟨-, hrem, x, xs, -, hxfer, hopened, hdone⟩ := hin
    obtain ⟨-, hop, hpred, -⟩ := inXfer_frame hxfer
    refine ⟨hcore, hidle, fun f hf => ?_, fun f hf => ?_, hdone ▸ h.doneWhole⟩
    all_goals obtain ⟨g, hg, rfl⟩ := Option.map_eq_some_iff.1 (hopened.symm.trans hf)
    · exact hop.trans (h.openedOp g hg)
    · have hitems := h.openedItems g hg
      have hcount := toNat_sub_one_add_one hrem
      change _ = g.len.toNat
      rw [hpred, popItem_rem, List.length_append, List.length_singleton]
      omega
  · obtain ⟨hst, hxfer, hopened, hdone⟩ := hout
    obtain ⟨-, hop, hrem, -⟩ := outXfer_frame hst hxfer
    refine ⟨hcore, hidle, fun f hf => ?_, fun f hf => ?_, hdone ▸ h.doneWhole⟩
    · exact hop.trans (h.openedOp f (hopened ▸ hf))
    · rw [hrem]
      exact h.openedItems f (hopened ▸ hf)
  · obtain ⟨hst, rfl⟩ := hrsp
    refine ⟨hcore, hidle, by simp, by simp, fun f hf => ?_⟩
    obtain hold | hnew := List.mem_append.1 hf
    · exact h.doneWhole f hold
    · have hopened : r.opened = some f := by simpa using hnew
      have hitems := h.openedItems f hopened
      rw [(h.core.respQuiet hst).1] at hitems
      exact decide_eq_true hitems

end Sys2Proof.Machine

open Sys2Proof Sys2Proof.Machine

/-- Settles O57: the book enters each frame as the run of the core takes it, and a program that has ended before the
last transfer would have one frame too many at the end. -/
theorem programRunEndsAfterItsFrames : Obligations.ProgramRunEndsAfterItsFrames := by
  intro fs s ws xs hwf hst heager hcmd hin total
  obtain ⟨t, hadv, h⟩ := advanceBy_program (r := HostRun.start s) hwf hst heager hcmd hin rfl
  have hiff : (HostRun.start s).opened = none ↔ (HostRun.start s).core.st = .idle := by simp [hst]
  refine ⟨⟨_, hadv, ⟨rfl, rfl⟩, ?_, ?_, h.idle, fun f hf => ?_⟩, fun n r hn hr hended => ?_⟩
  · simp [HostRun.observation, h.itemOut]
  · simp [HostRun.observation, h.rspOut]
  · obtain ⟨hop, ⟨hrem, hacc, hgcnt, holen, hoidx⟩, hstatus, hinfo, hocnt⟩ := h.last f hf
    exact ⟨hop, hrem, hacc, hgcnt, holen, hoidx, hstatus, hinfo, hocnt⟩
  · have hbook := bookFollows_of_advanceBy hiff heager.1 hr
    obtain ⟨m, hm⟩ : ∃ m, total = n + (m + 1) := ⟨total - n - 1, by omega⟩
    have hrest : r.advanceBy (m + 1) = .next ⟨t, none, fs⟩ := by
      rw [← advanceBy_add hr, ← hm]
      exact hadv
    exact not_ended_of_advanceBy_succ hbook.openedOutsideIdle hbook.rst hended hrest ⟨rfl, rfl⟩

/-- Settles O58: only the response closes a frame, and it adds the open one to those done. -/
theorem runEndsWithItsLastResponse : Obligations.RunEndsWithItsLastResponse := by
  intro p r h
  refine ⟨?_, fun q hrst hopen hadv hended => ?_⟩
  · rintro (hbusy | hfew) ⟨hnone, hdone⟩
    · exact hbusy (h.openedOutsideIdle.1 hnone)
    · rw [hdone] at hfew
      exact lt_irrefl _ hfew
  · obtain ⟨hnone, hdone⟩ := hended
    obtain hcmd | hin | hout | hrsp := ((advance_cases hadv).resolve_left (by simp [hrst])).2
    · obtain ⟨-, w, ws, -, -, hopened, -⟩ := hcmd
      simp [hopened] at hnone
    · obtain ⟨-, -, x, xs, -, -, hopened, hsame⟩ := hin
      exact absurd ⟨by simpa [hopened] using hnone, hsame ▸ hdone⟩ hopen
    · obtain ⟨-, -, hopened, hsame⟩ := hout
      exact absurd ⟨hopened ▸ hnone, hsame ▸ hdone⟩ hopen
    · obtain ⟨hst, rfl⟩ := hrsp
      obtain ⟨f, hf⟩ := exists_opened h.openedOutsideIdle (by simp [hst])
      exact ⟨hst, rfl, rfl, f, hf, by rw [← hdone, hf]; rfl⟩

/-- Settles O59, by the transfer: the open frame counts the items that REM loses, and at the response REM is 0. -/
theorem hostRunInvariantIsKept : Obligations.HostRunInvariantIsKept :=
  ⟨hostRunInvariant_start, fun _ _ h hadv => h.after_advance hadv, fun a _ h => h.after_act a⟩

/-- Settles O60: the reset is the step taken, and it closes the open frame without entering it as done. -/
theorem resetAbandonsTheOpenFrame : Obligations.ResetAbandonsTheOpenFrame := by
  intro r hrst
  have hadv : r.advance = .next ⟨resetRegs r.core, none, r.done⟩ :=
    advance_next.2 ⟨step_eq_resetRegs hrst, by rw [enabledTransfer_reset.2 hrst, enter_reset]⟩
  exact ⟨_, hadv, rfl, rfl, rfl, rfl, rfl, rfl, rfl, fun p hp hended => hp hended.2⟩
end
